-- ==== Sys2Proof/Word.lean ====
section
/-! DEFINITION. Sys2Proof/Word.lean: the widths of TAL (spec/00_scope.md R4, spec/20_memory.md R41, R42). -/

namespace Sys2Proof

/-- A register, an address, an instruction word: 32 bits (R4). -/
abbrev Word := BitVec 32

/-- A byte of memory: 8 bits (R41). -/
abbrev Byte := BitVec 8

end Sys2Proof
end

