-- ==== Sys2Proof/Config.lean ====
section
/-! DEFINITION. Sys2Proof/Config.lean: the parameters of spec/00_scope.md R4 and the free values (draws).

The parameters are plain data, so that a statement about every state is a statement about every parameter
setting; `State.cfg` carries them and no instruction writes them (log 1). The draws are opaque constants: nothing
can be proved of a value of theirs (log 7). -/

namespace Sys2Proof

/-- BYTE_ORDER (R44): which end of a word lies at the lowest address. OPEN in the spec (D3). -/
inductive ByteOrder where
  | big
  | little
  deriving DecidableEq, Repr

/-- The two privilege modes (R225). -/
inductive Mode where
  | kernel
  | user
  deriving DecidableEq, Repr

/-- The kinds of access that the checks of R45 tell apart. -/
inductive AccessKind where
  | load
  | store
  | fetch
  deriving DecidableEq, Repr

/-- The two widths of an access, `n = 1` and `n = 4` of R45. -/
inductive Width where
  | byte
  | word
  deriving DecidableEq, Repr

/-- SDIV (R113, D8, U23): how a signed quotient is rounded. -/
inductive DivRounding where
  /-- Toward zero, the remainder has the dividend's sign: the default. -/
  | truncate
  /-- Toward minus infinity, the remainder has the divisor's sign: the "flooring SDIV" that program P3 of
  spec/95_test_vectors.md mentions. That a run may take it, and no third rounding, is a DESIGN CHOICE, unsafe (log 5). -/
  | floor
  deriving DecidableEq, Repr

/-- FP (R168, D18): which numerics record the six computing instructions use. -/
inductive FpRecord where
  /-- `FP_IEEE_RNE`, the default: IEEE 754 binary32, round to nearest, ties to even. -/
  | ieeeRne
  /-- Any other record: six functions of the operands of which nothing is known (`Config.platformAdd` and so on), asked
  for the operands for which R169 has no draw (DEDUCED, safe, log 21). -/
  | platform
  deriving DecidableEq, Repr

/-- A range of aligned words that hold memory. Counting in words keeps MEM_VALID closed under word alignment, as
R43 asks. -/
structure WordRange where
  /-- The first word's number: its address divided by 4. -/
  firstWord : Nat
  /-- How many words. -/
  words : Nat
  deriving DecidableEq, Repr

/-- A range of addresses that one mode may not use for one kind of access: the plain-data form of `ADDR_OK` (R56). -/
structure AddrBan where
  mode : Mode
  kind : AccessKind
  base : Nat
  size : Nat
  deriving DecidableEq, Repr

/-- The parameters of R4. The decided parameters SHIFTV_BITS = 5 (D19) and STRICT_DECODE (D16) are built in. -/
structure Config where
  /-- BYTE_ORDER (R44). -/
  byteOrder : ByteOrder
  /-- R0_ZERO (R21). -/
  r0Zero : Bool
  /-- EXCEPTION_HANDLER (R210). -/
  exceptionHandler : Word
  /-- RESET_PC (R241). -/
  resetPc : Word
  /-- MEM_VALID (R43): the ranges that hold memory. -/
  memValid : List WordRange
  /-- ADDR_OK (R45, R56): the accesses it answers false for. -/
  addrBans : List AddrBan
  /-- SDIV (R113). -/
  divRounding : DivRounding
  /-- FP (R168). -/
  fp : FpRecord
  deriving DecidableEq, Repr

/-- The defaults of R4. The two parameters that have none are the model's: big-endian (DESIGN CHOICE, unsafe,
log 2) and memory at every address (DESIGN CHOICE, unsafe, log 3). -/
def Config.default : Config where
  byteOrder := .big
  r0Zero := true
  exceptionHandler := 0x80000080#32
  resetPc := 0xBFC00000#32
  memValid := [⟨0, 0x40000000⟩]
  addrBans := []
  divRounding := .truncate
  fp := .ieeeRne

/-- The draws of spec/93_implementation_defined.md (U1, U2, U8, U9, U16, U18): the `n`-th free value of a run.
DESIGN CHOICE, safe (log 7). -/
opaque Config.draw : Nat → Word

/-- The word that the `n`-th step's fetch finds in bytes that nothing has written (R38, U16). Safe (log 8). -/
opaque Config.fetchDraw : Nat → Word

/-- `FP.add` of a platform's own record (R168), where R169 has no draw. -/
opaque Config.platformAdd : Word → Word → Word

/-- `FP.sub` of a platform's own record (R168), where R169 has no draw. -/
opaque Config.platformSub : Word → Word → Word

/-- `FP.mul` of a platform's own record (R168), where R169 has no draw. -/
opaque Config.platformMul : Word → Word → Word

/-- `FP.div` of a platform's own record (R168), where R169 has no draw. -/
opaque Config.platformDiv : Word → Word → Word

/-- `FP.cvt_s_w` of a platform's own record (R168). -/
opaque Config.platformCvtSW : Word → Word

/-- `FP.cvt_w_s` of a platform's own record (R168), where R169 has no draw. -/
opaque Config.platformCvtWS : Word → Word

end Sys2Proof
end

