-- ==== Sys2Proof/Syntax.lean ====
section
/-! DEFINITION. Sys2Proof/Syntax.lean: the 60 instructions of spec/30_encoding.md R70, one constructor per row of
spec/opcode_table.json, in the table's order. Operands stand in the order of the assembly format (R85) and have the
width of their field (R61), so every term is encodable. -/

namespace Sys2Proof

/-- The number of a general register `R_0 .. R_31` (R20). -/
abbrev GReg := BitVec 5

/-- The number of a floating point register `F_0 .. F_31` (R26). -/
abbrev FReg := BitVec 5

/-- The number of a control register `C_0 .. C_31` of co-processor 0 (R30). -/
abbrev CReg := BitVec 5

/-- The immediate field `I[15:0]` (R61). -/
abbrev Imm16 := BitVec 16

/-- The shift amount field `I[10:6]` (R61). -/
abbrev Shamt := BitVec 5

/-- The jump target field `I[25:0]` (R61). -/
abbrev Target := BitVec 26

inductive Instr where
  /-- `lw R_t, I(R_b)` (R100). -/
  | lw (rt rb : GReg) (imm : Imm16)
  /-- `lb R_t, I(R_b)` (R101). -/
  | lb (rt rb : GReg) (imm : Imm16)
  /-- `lbu R_t, I(R_b)` (R102). -/
  | lbu (rt rb : GReg) (imm : Imm16)
  /-- `sw R_t, I(R_b)` (R103). -/
  | sw (rt rb : GReg) (imm : Imm16)
  /-- `sb R_t, I(R_b)` (R104). -/
  | sb (rt rb : GReg) (imm : Imm16)
  /-- `add R_d, R_s, R_t` (R110). -/
  | add (rd rs rt : GReg)
  /-- `sub R_d, R_s, R_t` (R111). -/
  | sub (rd rs rt : GReg)
  /-- `mult R_s, R_t` (R112). -/
  | mult (rs rt : GReg)
  /-- `div R_s, R_t` (R113). -/
  | div (rs rt : GReg)
  /-- `addu R_d, R_s, R_t` (R114). -/
  | addu (rd rs rt : GReg)
  /-- `subu R_d, R_s, R_t` (R115). -/
  | subu (rd rs rt : GReg)
  /-- `multu R_s, R_t` (R116). -/
  | multu (rs rt : GReg)
  /-- `divu R_s, R_t` (R117). -/
  | divu (rs rt : GReg)
  /-- `and R_d, R_s, R_t` (R118). -/
  | and (rd rs rt : GReg)
  /-- `nor R_d, R_s, R_t` (R119). -/
  | nor (rd rs rt : GReg)
  /-- `or R_d, R_s, R_t` (R120). -/
  | or (rd rs rt : GReg)
  /-- `xor R_d, R_s, R_t` (R121). -/
  | xor (rd rs rt : GReg)
  /-- `addi R_t, R_s, I` (R130). -/
  | addi (rt rs : GReg) (imm : Imm16)
  /-- `addiu R_t, R_s, I` (R131). -/
  | addiu (rt rs : GReg) (imm : Imm16)
  /-- `andi R_t, R_s, I` (R132). -/
  | andi (rt rs : GReg) (imm : Imm16)
  /-- `lui R_t, I` (R133). -/
  | lui (rt : GReg) (imm : Imm16)
  /-- `ori R_t, R_s, I` (R134). -/
  | ori (rt rs : GReg) (imm : Imm16)
  /-- `xori R_t, R_s, I` (R135). -/
  | xori (rt rs : GReg) (imm : Imm16)
  /-- `mfhi R_d` (R140). -/
  | mfhi (rd : GReg)
  /-- `mthi R_s` (R141). -/
  | mthi (rs : GReg)
  /-- `mflo R_d` (R142). -/
  | mflo (rd : GReg)
  /-- `mtlo R_s` (R143). -/
  | mtlo (rs : GReg)
  /-- `sll R_d, R_t, I` (R150). -/
  | sll (rd rt : GReg) (sh : Shamt)
  /-- `srl R_d, R_t, I` (R151). -/
  | srl (rd rt : GReg) (sh : Shamt)
  /-- `sra R_d, R_t, I` (R152). -/
  | sra (rd rt : GReg) (sh : Shamt)
  /-- `sllv R_d, R_t, R_s` (R153). -/
  | sllv (rd rt rs : GReg)
  /-- `srlv R_d, R_t, R_s` (R154). -/
  | srlv (rd rt rs : GReg)
  /-- `srav R_d, R_t, R_s` (R155). -/
  | srav (rd rt rs : GReg)
  /-- `lwc1 F_t, I(R_b)` (R160; printed `lwcl`, C2). -/
  | lwc1 (ft : FReg) (rb : GReg) (imm : Imm16)
  /-- `swc1 F_t, I(R_b)` (R161; printed `swcl`, C2). -/
  | swc1 (ft : FReg) (rb : GReg) (imm : Imm16)
  /-- `add.s F_d, F_s, F_t` (R162). -/
  | addS (fd fs ft : FReg)
  /-- `sub.s F_d, F_s, F_t` (R163). -/
  | subS (fd fs ft : FReg)
  /-- `mul.s F_d, F_s, F_t` (R164). -/
  | mulS (fd fs ft : FReg)
  /-- `div.s F_d, F_s, F_t` (R165). -/
  | divS (fd fs ft : FReg)
  /-- `cvt.s.w G_d, W_s` (R166). -/
  | cvtSW (fd fs : FReg)
  /-- `cvt.w.s W_d, G_s` (R167). -/
  | cvtWS (fd fs : FReg)
  /-- `bltz R_s, I` (R170). -/
  | bltz (rs : GReg) (imm : Imm16)
  /-- `bgez R_s, I` (R171). -/
  | bgez (rs : GReg) (imm : Imm16)
  /-- `blez R_s, I` (R172). -/
  | blez (rs : GReg) (imm : Imm16)
  /-- `bgtz R_s, I` (R173). -/
  | bgtz (rs : GReg) (imm : Imm16)
  /-- `beq R_s, R_t, I` (R174). -/
  | beq (rs rt : GReg) (imm : Imm16)
  /-- `bne R_s, R_t, I` (R175). -/
  | bne (rs rt : GReg) (imm : Imm16)
  /-- `slt R_d, R_s, R_t` (R180). -/
  | slt (rd rs rt : GReg)
  /-- `slti R_t, R_s, I` (R181). -/
  | slti (rt rs : GReg) (imm : Imm16)
  /-- `j I` (R182). -/
  | j (target : Target)
  /-- `jr R_s` (R183). -/
  | jr (rs : GReg)
  /-- `jal I` (R184). -/
  | jal (target : Target)
  /-- `jalr R_d, R_s` (R185). -/
  | jalr (rd rs : GReg)
  /-- `syscall` (R190). -/
  | syscall
  /-- `break` (R191), with its free bits 25..12 and 10..6 (R82). -/
  | brk (upper : BitVec 14) (lower : BitVec 5)
  /-- `rfe` (R192). -/
  | rfe
  /-- `mfc0 R_t, C_d` (R193). -/
  | mfc0 (rt : GReg) (cd : CReg)
  /-- `mtc0 R_t, C_d` (R194). -/
  | mtc0 (rt : GReg) (cd : CReg)
  /-- `mfc1 R_t, F_d` (R195). -/
  | mfc1 (rt : GReg) (fd : FReg)
  /-- `mtc1 R_t, F_d` (R196). -/
  | mtc1 (rt : GReg) (fd : FReg)
  deriving DecidableEq, Repr

end Sys2Proof
end

