-- ==== Sys2Proof/WellFormed.lean ====
section
/-! DEFINITION. Sys2Proof/WellFormed.lean: the operand forms that the spec gives a meaning. Every term of `Instr` is
encodable (its operands have the width of their fields); what is left to check are the three forms that are listed
instructions and that the spec refuses (R185; R35, R193; R33 to R35, R194). -/

namespace Sys2Proof

/-- The four control registers that exist: BadVAddr, Status, Cause, EPC (R31 to R35, D11). -/
def CReg.readable (cd : CReg) : Bool := cd == 8 || cd == 12 || cd == 13 || cd == 14

/-- The two control registers `mtc0` may name: Status and Cause (R33, R34, R194). -/
def CReg.writable (cd : CReg) : Bool := cd == 12 || cd == 13

/-- The instruction's operands are of a form that the spec gives a meaning. -/
def Instr.wellFormed (i : Instr) : Bool :=
  match i with
  | .jalr rd rs => rd != rs
  | .mfc0 _ cd => cd.readable
  | .mtc0 _ cd => cd.writable
  | .lw .. | .lb .. | .lbu .. | .sw .. | .sb .. | .add .. | .sub .. | .mult .. | .div .. | .addu .. | .subu ..
  | .multu .. | .divu .. | .and .. | .nor .. | .or .. | .xor .. | .addi .. | .addiu .. | .andi .. | .lui .. | .ori ..
  | .xori .. | .mfhi .. | .mthi .. | .mflo .. | .mtlo .. | .sll .. | .srl .. | .sra .. | .sllv .. | .srlv .. | .srav ..
  | .lwc1 .. | .swc1 .. | .addS .. | .subS .. | .mulS .. | .divS .. | .cvtSW .. | .cvtWS .. | .bltz .. | .bgez ..
  | .blez .. | .bgtz .. | .beq .. | .bne .. | .slt .. | .slti .. | .j .. | .jr .. | .jal .. | .syscall | .brk .. | .rfe
  | .mfc1 .. | .mtc1 .. => true

/-- `Instr.wellFormed` as a proposition. -/
abbrev WellFormed (i : Instr) : Prop := i.wellFormed = true

end Sys2Proof
end

