-- ==== Sys2Proof/Decode.lean ====
section
/-! DEFINITION. Sys2Proof/Decode.lean: the decoder and the encoder, both written from the opcode table
(spec/30_encoding.md R61 to R76), the byte layout of a word (spec/20_memory.md R44), and the host's
`decodeTableWord`. Decoding is strict (R76): a word is a row's instruction if and only if `(w AND mask) = match`. -/

namespace Sys2Proof

/-! ## Bytes of a word (R44) -/

/-- The word whose four bytes, from the lowest address up, are `b0 b1 b2 b3` (R44). -/
def wordOfBytes (o : ByteOrder) (b0 b1 b2 b3 : Byte) : Word :=
  match o with
  | .big => b0 ++ b1 ++ b2 ++ b3
  | .little => b3 ++ b2 ++ b1 ++ b0

/-- The byte of `w` that lies `k` locations above the word's address, `k = 0 .. 3` (R44). -/
def byteOfWord (o : ByteOrder) (w : Word) (k : Nat) : Byte :=
  match o with
  | .big => w.extractLsb' (24 - 8 * k) 8
  | .little => w.extractLsb' (8 * k) 8

/-! ## Fields (R61) -/

/-- `s`, and `b` of a memory instruction: bits 25..21. -/
def fieldS (w : Word) : GReg := w.extractLsb' 21 5

/-- `t`: bits 20..16. -/
def fieldT (w : Word) : GReg := w.extractLsb' 16 5

/-- `d`: bits 15..11. -/
def fieldD (w : Word) : GReg := w.extractLsb' 11 5

/-- `sh`: bits 10..6. -/
def fieldSh (w : Word) : Shamt := w.extractLsb' 6 5

/-- `imm`: bits 15..0. -/
def fieldImm (w : Word) : Imm16 := w.extractLsb' 0 16

/-- `tgt`: bits 25..0. -/
def fieldTarget (w : Word) : Target := w.extractLsb' 0 26

/-- `ft` of the `.s` rows: bits 20..16. -/
def fieldFt (w : Word) : FReg := w.extractLsb' 16 5

/-- `fs` of the `.s` rows: bits 15..11. -/
def fieldFs (w : Word) : FReg := w.extractLsb' 11 5

/-- `fd` of the `.s` rows: bits 10..6. -/
def fieldFd (w : Word) : FReg := w.extractLsb' 6 5

/-- The upper free bits of `break`: bits 25..12 (R82). -/
def fieldBreakUpper (w : Word) : BitVec 14 := w.extractLsb' 12 14

/-! ## The opcode table (R70) -/

/-- A row of R70: `mask` and `pat` (its `match`), and how its operands are read. -/
structure Row where
  mask : Word
  pat : Word
  build : Word → Instr

/-- R70: loads and stores (R100 to R104). -/
def loadStoreRows : List Row := [
  ⟨0xFC000000#32, 0x8C000000#32, fun w => .lw (fieldT w) (fieldS w) (fieldImm w)⟩,
  ⟨0xFC000000#32, 0x80000000#32, fun w => .lb (fieldT w) (fieldS w) (fieldImm w)⟩,
  ⟨0xFC000000#32, 0x90000000#32, fun w => .lbu (fieldT w) (fieldS w) (fieldImm w)⟩,
  ⟨0xFC000000#32, 0xAC000000#32, fun w => .sw (fieldT w) (fieldS w) (fieldImm w)⟩,
  ⟨0xFC000000#32, 0xA0000000#32, fun w => .sb (fieldT w) (fieldS w) (fieldImm w)⟩]

/-- R70: register arithmetic and logic (R110 to R121). -/
def arithmeticRows : List Row := [
  ⟨0xFC0007FF#32, 0x00000020#32, fun w => .add (fieldD w) (fieldS w) (fieldT w)⟩,
  ⟨0xFC0007FF#32, 0x00000022#32, fun w => .sub (fieldD w) (fieldS w) (fieldT w)⟩,
  ⟨0xFC00FFFF#32, 0x00000018#32, fun w => .mult (fieldS w) (fieldT w)⟩,
  ⟨0xFC00FFFF#32, 0x0000001A#32, fun w => .div (fieldS w) (fieldT w)⟩,
  ⟨0xFC0007FF#32, 0x00000021#32, fun w => .addu (fieldD w) (fieldS w) (fieldT w)⟩,
  ⟨0xFC0007FF#32, 0x00000023#32, fun w => .subu (fieldD w) (fieldS w) (fieldT w)⟩,
  ⟨0xFC00FFFF#32, 0x00000019#32, fun w => .multu (fieldS w) (fieldT w)⟩,
  ⟨0xFC00FFFF#32, 0x0000001B#32, fun w => .divu (fieldS w) (fieldT w)⟩,
  ⟨0xFC0007FF#32, 0x00000024#32, fun w => .and (fieldD w) (fieldS w) (fieldT w)⟩,
  ⟨0xFC0007FF#32, 0x00000027#32, fun w => .nor (fieldD w) (fieldS w) (fieldT w)⟩,
  ⟨0xFC0007FF#32, 0x00000025#32, fun w => .or (fieldD w) (fieldS w) (fieldT w)⟩,
  ⟨0xFC0007FF#32, 0x00000026#32, fun w => .xor (fieldD w) (fieldS w) (fieldT w)⟩]

/-- R70: immediates (R130 to R135). -/
def immediateRows : List Row := [
  ⟨0xFC000000#32, 0x20000000#32, fun w => .addi (fieldT w) (fieldS w) (fieldImm w)⟩,
  ⟨0xFC000000#32, 0x24000000#32, fun w => .addiu (fieldT w) (fieldS w) (fieldImm w)⟩,
  ⟨0xFC000000#32, 0x30000000#32, fun w => .andi (fieldT w) (fieldS w) (fieldImm w)⟩,
  ⟨0xFFE00000#32, 0x3C000000#32, fun w => .lui (fieldT w) (fieldImm w)⟩,
  ⟨0xFC000000#32, 0x34000000#32, fun w => .ori (fieldT w) (fieldS w) (fieldImm w)⟩,
  ⟨0xFC000000#32, 0x38000000#32, fun w => .xori (fieldT w) (fieldS w) (fieldImm w)⟩]

/-- R70: HI and LO moves (R140 to R143). -/
def hiLoRows : List Row := [
  ⟨0xFFFF07FF#32, 0x00000010#32, fun w => .mfhi (fieldD w)⟩,
  ⟨0xFC1FFFFF#32, 0x00000011#32, fun w => .mthi (fieldS w)⟩,
  ⟨0xFFFF07FF#32, 0x00000012#32, fun w => .mflo (fieldD w)⟩,
  ⟨0xFC1FFFFF#32, 0x00000013#32, fun w => .mtlo (fieldS w)⟩]

/-- R70: shifts (R150 to R155). -/
def shiftRows : List Row := [
  ⟨0xFFE0003F#32, 0x00000000#32, fun w => .sll (fieldD w) (fieldT w) (fieldSh w)⟩,
  ⟨0xFFE0003F#32, 0x00000002#32, fun w => .srl (fieldD w) (fieldT w) (fieldSh w)⟩,
  ⟨0xFFE0003F#32, 0x00000003#32, fun w => .sra (fieldD w) (fieldT w) (fieldSh w)⟩,
  ⟨0xFC0007FF#32, 0x00000004#32, fun w => .sllv (fieldD w) (fieldT w) (fieldS w)⟩,
  ⟨0xFC0007FF#32, 0x00000006#32, fun w => .srlv (fieldD w) (fieldT w) (fieldS w)⟩,
  ⟨0xFC0007FF#32, 0x00000007#32, fun w => .srav (fieldD w) (fieldT w) (fieldS w)⟩]

/-- R70: floating point (R160 to R167). -/
def floatRows : List Row := [
  ⟨0xFC000000#32, 0xC4000000#32, fun w => .lwc1 (fieldT w) (fieldS w) (fieldImm w)⟩,
  ⟨0xFC000000#32, 0xE4000000#32, fun w => .swc1 (fieldT w) (fieldS w) (fieldImm w)⟩,
  ⟨0xFFE0003F#32, 0x46000000#32, fun w => .addS (fieldFd w) (fieldFs w) (fieldFt w)⟩,
  ⟨0xFFE0003F#32, 0x46000001#32, fun w => .subS (fieldFd w) (fieldFs w) (fieldFt w)⟩,
  ⟨0xFFE0003F#32, 0x46000002#32, fun w => .mulS (fieldFd w) (fieldFs w) (fieldFt w)⟩,
  ⟨0xFFE0003F#32, 0x46000003#32, fun w => .divS (fieldFd w) (fieldFs w) (fieldFt w)⟩,
  ⟨0xFFFF003F#32, 0x46800020#32, fun w => .cvtSW (fieldFd w) (fieldFs w)⟩,
  ⟨0xFFFF003F#32, 0x46000024#32, fun w => .cvtWS (fieldFd w) (fieldFs w)⟩]

/-- R70: branches (R170 to R175). -/
def branchRows : List Row := [
  ⟨0xFC1F0000#32, 0x04000000#32, fun w => .bltz (fieldS w) (fieldImm w)⟩,
  ⟨0xFC1F0000#32, 0x04010000#32, fun w => .bgez (fieldS w) (fieldImm w)⟩,
  ⟨0xFC1F0000#32, 0x18000000#32, fun w => .blez (fieldS w) (fieldImm w)⟩,
  ⟨0xFC1F0000#32, 0x1C000000#32, fun w => .bgtz (fieldS w) (fieldImm w)⟩,
  ⟨0xFC000000#32, 0x10000000#32, fun w => .beq (fieldS w) (fieldT w) (fieldImm w)⟩,
  ⟨0xFC000000#32, 0x14000000#32, fun w => .bne (fieldS w) (fieldT w) (fieldImm w)⟩]

/-- R70: comparison and jumps (R180 to R185). -/
def compareJumpRows : List Row := [
  ⟨0xFC0007FF#32, 0x0000002A#32, fun w => .slt (fieldD w) (fieldS w) (fieldT w)⟩,
  ⟨0xFC000000#32, 0x28000000#32, fun w => .slti (fieldT w) (fieldS w) (fieldImm w)⟩,
  ⟨0xFC000000#32, 0x08000000#32, fun w => .j (fieldTarget w)⟩,
  ⟨0xFC1FFFFF#32, 0x00000008#32, fun w => .jr (fieldS w)⟩,
  ⟨0xFC000000#32, 0x0C000000#32, fun w => .jal (fieldTarget w)⟩,
  ⟨0xFC1F07FF#32, 0x00000009#32, fun w => .jalr (fieldD w) (fieldS w)⟩]

/-- R70: system and co-processor moves (R190 to R196). -/
def systemRows : List Row := [
  ⟨0xFFFFFFFF#32, 0x0000000C#32, fun _ => .syscall⟩,
  ⟨0xFC00083F#32, 0x0000000D#32, fun w => .brk (fieldBreakUpper w) (fieldSh w)⟩,
  ⟨0xFFFFFFFF#32, 0x42000010#32, fun _ => .rfe⟩,
  ⟨0xFFE007FF#32, 0x40000000#32, fun w => .mfc0 (fieldT w) (fieldD w)⟩,
  ⟨0xFFE007FF#32, 0x40800000#32, fun w => .mtc0 (fieldT w) (fieldD w)⟩,
  ⟨0xFFE007FF#32, 0x44000000#32, fun w => .mfc1 (fieldT w) (fieldD w)⟩,
  ⟨0xFFE007FF#32, 0x44800000#32, fun w => .mtc1 (fieldT w) (fieldD w)⟩]

/-- The opcode table: the 60 rows of R70, in the table's order. -/
def opcodeTable : List Row :=
  loadStoreRows ++ arithmeticRows ++ immediateRows ++ hiLoRows ++ shiftRows ++ floatRows ++ branchRows ++ compareJumpRows ++ systemRows

/-! ## Decoding -/

/-- `w` satisfies the row: `(w AND mask) = match` (R70). -/
def Row.admits (r : Row) (w : Word) : Bool := w &&& r.mask == r.pat

/-- The instruction of a word, `none` for a word that matches no row, which is reserved (R70, R76, R80). -/
def decodeWord (w : Word) : Option Instr :=
  (opcodeTable.find? (fun r => r.admits w)).map (fun r => r.build w)

/-- What the decoder answers on bytes. -/
inductive Decoded where
  /-- An instruction, and the bytes after it. -/
  | instr (i : Instr) (rest : List Byte)
  /-- The word matches no row: executing it raises ReservedInstruction (R80). -/
  | reserved (w : Word)
  /-- Fewer than four bytes: no instruction word (R60). -/
  | truncated
  deriving DecidableEq, Repr

/-- Decoding of bytes as memory holds them, from the lowest address up (R44, R49, R60). -/
def decodeBytes (o : ByteOrder) (bytes : List Byte) : Decoded :=
  match bytes with
  | b0 :: b1 :: b2 :: b3 :: rest =>
    match decodeWord (wordOfBytes o b0 b1 b2 b3) with
    | some i => .instr i rest
    | none => .reserved (wordOfBytes o b0 b1 b2 b3)
  | _ => .truncated

/-- The host's question: what the decoder reads from the instruction whose bits are `w`, `nbits` of them, the bits
above being 0. The one word is laid out as the machine stores it (here in big-endian order, the order after reset)
and given to `decodeBytes`. -/
def decodeTableWord (nbits w : Nat) : Option Instr :=
  let word := BitVec.ofNat 32 (w % 2 ^ nbits)
  match decodeBytes .big ((List.range 4).map (byteOfWord .big word)) with
  | .instr i _ => some i
  | .reserved _ => none
  | .truncated => none

/-! ## Encoding (R61, R62) -/

/-- Format I (R62). -/
def encodeI (op : BitVec 6) (s t : BitVec 5) (imm : Imm16) : Word := op ++ s ++ t ++ imm

/-- Format R (R62), primary opcode 0. -/
def encodeR (s t d sh : BitVec 5) (fn : BitVec 6) : Word := 0#6 ++ s ++ t ++ d ++ sh ++ fn

/-- Format J (R62). -/
def encodeJ (op : BitVec 6) (tgt : Target) : Word := op ++ tgt

/-- Format FR (R62), primary opcode 17. -/
def encodeFR (fmt ft fs fd : BitVec 5) (fn : BitVec 6) : Word := 17#6 ++ fmt ++ ft ++ fs ++ fd ++ fn

/-- Format CM (R62), co-processor `z`. -/
def encodeCM (z : BitVec 2) (sub t d : BitVec 5) : Word := 4#4 ++ z ++ sub ++ t ++ d ++ 0#11

/-- The word of an instruction (R62, R71 to R75). -/
def encode (i : Instr) : Word :=
  match i with
  | .lw rt rb imm => encodeI 35 rb rt imm
  | .lb rt rb imm => encodeI 32 rb rt imm
  | .lbu rt rb imm => encodeI 36 rb rt imm
  | .sw rt rb imm => encodeI 43 rb rt imm
  | .sb rt rb imm => encodeI 40 rb rt imm
  | .add rd rs rt => encodeR rs rt rd 0 32
  | .sub rd rs rt => encodeR rs rt rd 0 34
  | .mult rs rt => encodeR rs rt 0 0 24
  | .div rs rt => encodeR rs rt 0 0 26
  | .addu rd rs rt => encodeR rs rt rd 0 33
  | .subu rd rs rt => encodeR rs rt rd 0 35
  | .multu rs rt => encodeR rs rt 0 0 25
  | .divu rs rt => encodeR rs rt 0 0 27
  | .and rd rs rt => encodeR rs rt rd 0 36
  | .nor rd rs rt => encodeR rs rt rd 0 39
  | .or rd rs rt => encodeR rs rt rd 0 37
  | .xor rd rs rt => encodeR rs rt rd 0 38
  | .addi rt rs imm => encodeI 8 rs rt imm
  | .addiu rt rs imm => encodeI 9 rs rt imm
  | .andi rt rs imm => encodeI 12 rs rt imm
  | .lui rt imm => encodeI 15 0 rt imm
  | .ori rt rs imm => encodeI 13 rs rt imm
  | .xori rt rs imm => encodeI 14 rs rt imm
  | .mfhi rd => encodeR 0 0 rd 0 16
  | .mthi rs => encodeR rs 0 0 0 17
  | .mflo rd => encodeR 0 0 rd 0 18
  | .mtlo rs => encodeR rs 0 0 0 19
  | .sll rd rt sh => encodeR 0 rt rd sh 0
  | .srl rd rt sh => encodeR 0 rt rd sh 2
  | .sra rd rt sh => encodeR 0 rt rd sh 3
  | .sllv rd rt rs => encodeR rs rt rd 0 4
  | .srlv rd rt rs => encodeR rs rt rd 0 6
  | .srav rd rt rs => encodeR rs rt rd 0 7
  | .lwc1 ft rb imm => encodeI 49 rb ft imm
  | .swc1 ft rb imm => encodeI 57 rb ft imm
  | .addS fd fs ft => encodeFR 16 ft fs fd 0
  | .subS fd fs ft => encodeFR 16 ft fs fd 1
  | .mulS fd fs ft => encodeFR 16 ft fs fd 2
  | .divS fd fs ft => encodeFR 16 ft fs fd 3
  | .cvtSW fd fs => encodeFR 20 0 fs fd 32
  | .cvtWS fd fs => encodeFR 16 0 fs fd 36
  | .bltz rs imm => encodeI 1 rs 0 imm
  | .bgez rs imm => encodeI 1 rs 1 imm
  | .blez rs imm => encodeI 6 rs 0 imm
  | .bgtz rs imm => encodeI 7 rs 0 imm
  | .beq rs rt imm => encodeI 4 rs rt imm
  | .bne rs rt imm => encodeI 5 rs rt imm
  | .slt rd rs rt => encodeR rs rt rd 0 42
  | .slti rt rs imm => encodeI 10 rs rt imm
  | .j target => encodeJ 2 target
  | .jr rs => encodeR rs 0 0 0 8
  | .jal target => encodeJ 3 target
  | .jalr rd rs => encodeR rs 0 rd 0 9
  | .syscall => encodeR 0 0 0 0 12
  | .brk upper lower => 0#6 ++ upper ++ 0#1 ++ lower ++ 13#6
  | .rfe => 16#6 ++ 1#1 ++ 0#19 ++ 16#6
  | .mfc0 rt cd => encodeCM 0 0 rt cd
  | .mtc0 rt cd => encodeCM 0 4 rt cd
  | .mfc1 rt fd => encodeCM 1 0 rt fd
  | .mtc1 rt fd => encodeCM 1 4 rt fd

/-- The four bytes of an instruction as memory holds them, from the lowest address up (R44, R49). -/
def encodeBytes (o : ByteOrder) (i : Instr) : List Byte := (List.range 4).map (byteOfWord o (encode i))

end Sys2Proof
end

