-- ==== Sys2Proof/Machine/State.lean ====
section
/-! DEFINITION. Sys2Proof/Machine/State.lean: the state of one TAL processor (spec/10_state.md, table before R20), the
reasons a step can stop, and the state after reset (R37, R241). All of it is plain data. -/

namespace Sys2Proof.Machine

/-- Memory (R28, R41): the bytes that have been written, as (address, byte) pairs with strictly rising addresses below
`2^32`. An unlisted address holds no value (R37, R38; log 8). -/
abbrev Memory := List Host.Cell

/-- The fields of Cause, `c0[13]`, that trap entry and `mtc0` write (R32). The sixth field, `IP[7:2]`, is the level of
the lines and lives in `State.irq` alone. -/
structure Cause where
  /-- ExcCode, bits 6..2: the code of the last exception. -/
  excCode : BitVec 5
  /-- IP[1:0], bits 9..8: the software interrupt requests. -/
  ip : BitVec 2
  /-- CE, bits 29..28: the co-processor number of the last CoprocessorUnusable exception. -/
  ce : BitVec 2
  /-- BD, bit 31: always 0, there are no delay slots. -/
  bd : BitVec 1
  deriving DecidableEq, Repr

/-- The state of the machine. The last two fields and `cfg` are the model's own: see INVENTORY.md. -/
structure State where
  /-- The parameters of R4, fixed for a run (R39, log 1). -/
  cfg : Config
  /-- The general registers (R20). -/
  regs : Vector Word 32
  /-- The program counter: the address of the instruction to execute next (R23, R24). -/
  pc : Word
  /-- `HI` (R25). -/
  hi : Word
  /-- `LO` (R25). -/
  lo : Word
  /-- The floating point registers of co-processor 1, 32 uninterpreted bits each (R26, R27). -/
  fregs : Vector Word 32
  /-- Status, `c0[12]` (R31). -/
  status : Word
  /-- Cause, `c0[13]` (R32). -/
  cause : Cause
  /-- EPC, `c0[14]` (R33). -/
  epc : Word
  /-- BadVAddr, `c0[8]` (R34). -/
  badVAddr : Word
  /-- Memory (R28, R40). -/
  mem : Memory
  /-- The external interrupt lines `IRQ[5:0]`, as sampled at the start of this step (R29, R203, R221). -/
  irq : BitVec 6
  /-- The levels the environment will supply at the next steps; past its end the lines keep their level (log 9). -/
  irqIn : List (BitVec 6)
  /-- How many free values have been drawn: the number of the next draw (log 7). -/
  draws : Nat
  deriving DecidableEq, Repr

/-- Why the machine stops without a next state. -/
inductive Fault where
  /-- A load, store or fetch (`kind`) at `addr`, outside MEM_VALID: "no step (stuck)" (R43, R203, U12). Raised by the
  access checks of `lw lb lbu sw sb lwc1 swc1` and by the fetch. Safe: the spec gives no effect, so nothing can be
  proved of one. -/
  | outsideMemValid (kind : AccessKind) (addr : Word)
  deriving DecidableEq, Repr

/-- Why an instruction is refused. -/
inductive Refusal where
  /-- An instruction whose arm has no meaning yet; raised by `exec` alone. Safe. -/
  | notModelled (mnemonic : String)
  /-- `jalr` with `d = s`: the spec gives it no meaning (R185, D20, U14); raised by `jalr`. Safe. -/
  | jalrLinkIsTarget
  /-- `mfc0` or `mtc0` of one of the 28 numbers that have no register (R35, D11, U11); raised by them. Safe. -/
  | controlRegisterAbsent (cd : BitVec 5)
  /-- `mtc0` to EPC or BadVAddr (R33, R34, U10); raised by `mtc0`. Safe. -/
  | controlRegisterReadOnly (cd : BitVec 5)
  deriving DecidableEq, Repr

/-- The state after reset under the parameters `cfg` (R37, R241): `pc = RESET_PC`, kernel mode with interrupts
disabled (`KUc = IEc = 0`), `x[0] = 0`, `BD = 0`, no memory byte listed. Everything else is unspecified in R37; the
model's value is 0 (DESIGN CHOICE, unsafe, log 10). -/
def State.resetWith (cfg : Config) : State where
  cfg := cfg
  regs := Vector.replicate 32 0
  pc := cfg.resetPc
  hi := 0
  lo := 0
  fregs := Vector.replicate 32 0
  status := 0
  cause := { excCode := 0, ip := 0, ce := 0, bd := 0 }
  epc := 0
  badVAddr := 0
  mem := []
  irq := 0
  irqIn := []
  draws := 0

/-- The machine right after reset, with the default parameters of R4. -/
def State.reset : State := State.resetWith Config.default

end Sys2Proof.Machine
end

