-- ==== Sys2Proof/Machine/Flags.lean ====
section
/-! DEFINITION. Sys2Proof/Machine/Flags.lean: TAL has no status flags (spec/10_state.md R36). What an instruction
decides from its operands instead is here: two's complement overflow (R110, R111, R207) and the comparisons with zero
of the branches (R176 (d)). -/

namespace Sys2Proof.Machine

/-- The exact integer does not fit 32 bits two's complement (R110, R207). -/
def outOfRange (v : Int) : Bool := decide (v < -0x80000000) || decide (v > 0x7FFFFFFF)

/-- The exact signed sum does not fit: Overflow of `add` and `addi` (R110, R130). -/
def addOverflows (x y : Word) : Bool := outOfRange (x.toInt + y.toInt)

/-- The exact signed difference does not fit: Overflow of `sub` (R111). -/
def subOverflows (x y : Word) : Bool := outOfRange (x.toInt - y.toInt)

/-- `signed(x) < 0`: the sign bit (R170, R176 (d)). -/
def isNegative (x : Word) : Bool := x.msb

/-- `x = 0x00000000` (R172, R173). -/
def isZero (x : Word) : Bool := x == 0

/-- `signed(x) < signed(y)` (R180, R181, D9). -/
def signedLess (x y : Word) : Bool := decide (x.toInt < y.toInt)

end Sys2Proof.Machine
end

