-- ==== Sys2Proof/Machine/Numerics.lean ====
section
/-! DEFINITION. Sys2Proof/Machine/Numerics.lean: the arithmetic of co-processor 1 (spec/45_floating_point.md R168, R169):
`FP_IEEE_RNE`, IEEE 754 binary32 with round to nearest, ties to even.

Every finite binary32 value is an integer multiple of `2^-149`, so the exact value of a pattern is one integer
(`fpUnits`), exact results are integers or fractions of integers, and there is one rounding (`fpRoundMag`). Where
IEEE 754 signals invalid the result is a draw among the NaN patterns, under every record (R169, U8): each function takes
that draw as its last argument and uses it for nothing else. -/

namespace Sys2Proof.Machine

/-! ## The format (R168) -/

/-- The sign bit, bit 31. -/
def fpSign (w : Word) : Bool := w.msb

/-- The biased exponent, bits 30..23. -/
def fpExponent (w : Word) : Nat := (w.extractLsb' 23 8).toNat

/-- The fraction, bits 22..0. -/
def fpFraction (w : Word) : Nat := (w.extractLsb' 0 23).toNat

/-- Not a number: `E = 255, T ≠ 0`. -/
def fpIsNaN (w : Word) : Bool := fpExponent w == 255 && fpFraction w != 0

/-- An infinity: `E = 255, T = 0`. -/
def fpIsInf (w : Word) : Bool := fpExponent w == 255 && fpFraction w == 0

/-- A zero of either sign: `E = 0, T = 0`. -/
def fpIsZero (w : Word) : Bool := fpExponent w == 0 && fpFraction w == 0

/-- The magnitude of a finite pattern in units of `2^-149`: `T` when `E = 0`, else `(2^23 + T) * 2^(E-1)`. -/
def fpMagUnits (w : Word) : Nat :=
  if fpExponent w = 0 then fpFraction w else (2 ^ 23 + fpFraction w) * 2 ^ (fpExponent w - 1)

/-- The exact value of a finite pattern in units of `2^-149`. -/
def fpUnits (w : Word) : Int := if fpSign w then -(fpMagUnits w : Int) else (fpMagUnits w : Int)

/-- A pattern from its sign and its low 31 bits. -/
def fpPack (neg : Bool) (mag : Nat) : Word := BitVec.ofBool neg ++ BitVec.ofNat 31 mag

/-- The infinity of a sign. -/
def fpInf (neg : Bool) : Word := fpPack neg 0x7F800000

/-- The zero of a sign. -/
def fpZero (neg : Bool) : Word := fpPack neg 0

/-- The NaN pattern a draw selects: the draw itself when it is a NaN, and every NaN pattern is some draw (R169). -/
def fpNaN (draw : Word) : Word :=
  if draw.extractLsb' 0 23 = 0 then draw ||| 0x7FC00000 else draw ||| 0x7F800000

/-! ## Rounding (R168) -/

/-- `num / den` rounded to the nearest natural number, ties to the even one. -/
def roundHalfEven (num den : Nat) : Nat :=
  let q := num / den
  let r := num % den
  if 2 * r < den then q
  else if den < 2 * r then q + 1
  else if q % 2 = 0 then q else q + 1

/-- The low 31 bits of the binary32 nearest to `num / den` units of `2^-149`, ties to even, gradual underflow; the
infinity's pattern when the rounded value is too large. The kept multiple of `2^shift` units, of at most 24 bits, is
`sig`; a carry out of the rounding moves into the exponent by itself. -/
def fpRoundMag (num den : Nat) : Nat :=
  let q := num / den
  let shift := if q < 2 ^ 24 then 0 else q.log2 - 23
  let sig := roundHalfEven num (den * 2 ^ shift)
  min (shift * 2 ^ 23 + sig) 0x7F800000

/-- The integer nearest to a finite pattern's value, ties to even: `rne(v)` of R167. -/
def fpNearestInt (a : Word) : Int :=
  let mag : Int := roundHalfEven (fpMagUnits a) (2 ^ 149)
  if fpSign a then -mag else mag

/-! ## Invalid operations (R169) -/

/-- `a + b` is invalid: a NaN operand, or `inf - inf`. -/
def fpAddInvalid (a b : Word) : Bool :=
  fpIsNaN a || fpIsNaN b || (fpIsInf a && fpIsInf b && fpSign a != fpSign b)

/-- `a - b` is invalid: a NaN operand, or `inf - inf`. -/
def fpSubInvalid (a b : Word) : Bool :=
  fpIsNaN a || fpIsNaN b || (fpIsInf a && fpIsInf b && fpSign a == fpSign b)

/-- `a * b` is invalid: a NaN operand, or `0 * inf`. -/
def fpMulInvalid (a b : Word) : Bool :=
  fpIsNaN a || fpIsNaN b || (fpIsZero a && fpIsInf b) || (fpIsInf a && fpIsZero b)

/-- `a / b` is invalid: a NaN operand, `0/0`, or `inf/inf`. -/
def fpDivInvalid (a b : Word) : Bool :=
  fpIsNaN a || fpIsNaN b || (fpIsZero a && fpIsZero b) || (fpIsInf a && fpIsInf b)

/-- `cvt.w.s` of `a` is invalid: a NaN, an infinity, or a rounded integer outside `-2^31 .. 2^31-1`. Every rounding to an
integer agrees on that, for a pattern of magnitude `2^24` or more is an integer (DEDUCED, log 21). -/
def fpCvtWSInvalid (a : Word) : Bool :=
  fpIsNaN a || fpIsInf a || decide (fpNearestInt a < -0x80000000) || decide (0x7FFFFFFF < fpNearestInt a)

/-! ## The six functions of `FP_IEEE_RNE` (R168, R169) -/

/-- `FP.add`. -/
def ieeeAdd (a b draw : Word) : Word :=
  if fpAddInvalid a b then fpNaN draw
  else if fpIsInf a then a
  else if fpIsInf b then b
  else
    let sum := fpUnits a + fpUnits b
    if sum = 0 then fpZero (fpSign a && fpSign b)
    else fpPack (decide (sum < 0)) (fpRoundMag sum.natAbs 1)

/-- The pattern with the other sign. -/
def fpNegate (a : Word) : Word := a ^^^ 0x80000000

/-- `FP.sub`: `a - b` is `a + (-b)`. -/
def ieeeSub (a b draw : Word) : Word :=
  if fpSubInvalid a b then fpNaN draw else ieeeAdd a (fpNegate b) draw

/-- `FP.mul`. -/
def ieeeMul (a b draw : Word) : Word :=
  let neg := fpSign a != fpSign b
  if fpMulInvalid a b then fpNaN draw
  else if fpIsInf a || fpIsInf b then fpInf neg
  else fpPack neg (fpRoundMag (fpMagUnits a * fpMagUnits b) (2 ^ 149))

/-- `FP.div`. -/
def ieeeDiv (a b draw : Word) : Word :=
  let neg := fpSign a != fpSign b
  if fpDivInvalid a b then fpNaN draw
  else if fpIsInf a then fpInf neg
  else if fpIsInf b then fpZero neg
  else if fpIsZero b then fpInf neg
  else fpPack neg (fpRoundMag (fpMagUnits a * 2 ^ 149) (fpMagUnits b))

/-- `FP.cvt_s_w`: the binary32 nearest to `signed(a)` (R166). -/
def ieeeCvtSW (a : Word) : Word :=
  fpPack (decide (a.toInt < 0)) (fpRoundMag (a.toInt.natAbs * 2 ^ 149) 1)

/-- `FP.cvt_w_s` (R167): an invalid conversion gives the draw itself. -/
def ieeeCvtWS (a draw : Word) : Word := if fpCvtWSInvalid a then draw else BitVec.ofInt 32 (fpNearestInt a)

/-! ## The record `FP` (R168, D18)

An invalid operation gives the draw of R169 under every record; a platform's own functions are asked for all other
operands (DEDUCED, safe, log 21). -/

/-- `FP.add` of the run's record. -/
def fpAdd (r : FpRecord) (a b draw : Word) : Word :=
  match r with
  | .ieeeRne => ieeeAdd a b draw
  | .platform => if fpAddInvalid a b then fpNaN draw else Config.platformAdd a b

/-- `FP.sub` of the run's record. -/
def fpSub (r : FpRecord) (a b draw : Word) : Word :=
  match r with
  | .ieeeRne => ieeeSub a b draw
  | .platform => if fpSubInvalid a b then fpNaN draw else Config.platformSub a b

/-- `FP.mul` of the run's record. -/
def fpMul (r : FpRecord) (a b draw : Word) : Word :=
  match r with
  | .ieeeRne => ieeeMul a b draw
  | .platform => if fpMulInvalid a b then fpNaN draw else Config.platformMul a b

/-- `FP.div` of the run's record. -/
def fpDiv (r : FpRecord) (a b draw : Word) : Word :=
  match r with
  | .ieeeRne => ieeeDiv a b draw
  | .platform => if fpDivInvalid a b then fpNaN draw else Config.platformDiv a b

/-- `FP.cvt_s_w` of the run's record: no conversion of an integer is invalid. -/
def fpCvtSW (r : FpRecord) (a : Word) : Word :=
  match r with
  | .ieeeRne => ieeeCvtSW a
  | .platform => Config.platformCvtSW a

/-- `FP.cvt_w_s` of the run's record. -/
def fpCvtWS (r : FpRecord) (a draw : Word) : Word :=
  match r with
  | .ieeeRne => ieeeCvtWS a draw
  | .platform => if fpCvtWSInvalid a then draw else Config.platformCvtWS a

end Sys2Proof.Machine
end

