-- ==== Sys2Proof/Machine/Operands.lean ====
section
/-! DEFINITION. Sys2Proof/Machine/Operands.lean: how instructions form their operands from instruction bits and
register values (spec/30_encoding.md R64, spec/20_memory.md R57, spec/46_branches.md R176, spec/44_shifts.md). -/

namespace Sys2Proof.Machine

/-- `sext_32(I[15:0])` (R11, R64). -/
def signExtImm (imm : Imm16) : Word := imm.signExtend 32

/-- `zext_32(I[15:0])` (R11, R64). -/
def zeroExtImm (imm : Imm16) : Word := imm.setWidth 32

/-- `I[15:0] ∥ 0^16` (R64, R133). -/
def upperImm (imm : Imm16) : Word := imm ++ 0#16

/-- The effective address of a memory instruction: base plus sign-extended displacement, modulo `2^32` (R57). -/
def effectiveAddress (base : Word) (imm : Imm16) : Word := base + signExtImm imm

/-- The byte offset of a branch: `sext_32(I[15:0] ∥ 00)` (R64, R176). -/
def branchOffset (imm : Imm16) : Word := (imm ++ 0#2).signExtend 32

/-- The target of a taken branch at `pc` (R176 (a)). -/
def branchTarget (pc : Word) (imm : Imm16) : Word := pc + 4 + branchOffset imm

/-- The target of `j` and `jal` at `pc`: `pc[31:28] ∥ I[25:0] ∥ 00` (R182, R184). -/
def jumpTarget (pc : Word) (target : Target) : Word := pc.extractLsb' 28 4 ++ target ++ 0#2

/-- The amount of a variable shift: bits 4..0 of `x[s]` (R153, conflict C1, D19). -/
def shiftAmount (x : Word) : Shamt := x.extractLsb' 0 5

/-- `x[31-n:0] ∥ 0^n` (R150). -/
def shiftLeft (x : Word) (n : Shamt) : Word := x <<< n.toNat

/-- `0^n ∥ x[31:n]` (R151). -/
def shiftRightLogical (x : Word) (n : Shamt) : Word := x >>> n.toNat

/-- `(x[31])^n ∥ x[31:n]` (R152). -/
def shiftRightArith (x : Word) (n : Shamt) : Word := x.sshiftRight n.toNat

/-- An aligned address: a multiple of 4 (R42, R47, D4). -/
def isAligned (a : Word) : Bool := a.extractLsb' 0 2 == 0

end Sys2Proof.Machine
end

