-- ==== Sys2Proof/Machine/Ops.lean ====
section
/-! DEFINITION. Sys2Proof/Machine/Ops.lean: the named operations over memory and registers, taking an exception and
returning from one (spec/60_exceptions.md R210, R211), and what a step does before it executes (R203). Every meaning is
written over these. -/

namespace Sys2Proof.Machine

/-- What executing an instruction answers. -/
abbrev Result := Host.Outcome State Fault Refusal

/-! ## Memory (spec/20_memory.md) -/

/-- `m[a]` (R41): the byte at an address, `none` when nothing has written it. -/
def Memory.readByte (m : Memory) (a : Nat) : Option Byte :=
  match m with
  | [] => none
  | (k, v) :: rest => if k = a then some v else Memory.readByte rest a

/-- `mem(a) <- v` (R45): keeps the addresses strictly rising. -/
def Memory.writeByte (m : Memory) (a : Nat) (v : Byte) : Memory :=
  match m with
  | [] => [(a, v)]
  | (k, u) :: rest =>
    if a < k then (a, v) :: (k, u) :: rest
    else if a = k then (a, v) :: rest
    else (k, u) :: Memory.writeByte rest a v

/-- The addresses rise strictly from `lo` and stay below `2^32`. -/
def Memory.risesFrom (m : Memory) (lo : Nat) : Bool :=
  match m with
  | [] => true
  | (k, _) :: rest => decide (lo ≤ k) && decide (k < 2 ^ 32) && Memory.risesFrom rest (k + 1)

/-- The canonical form: addresses strictly rising and below `2^32`, so that equal memories are equal data. An
unlisted address reads as no value, so no entry can equal it. -/
def Memory.wf (m : Memory) : Bool := Memory.risesFrom m 0

/-- The location `k` bytes above `a`, modulo `2^32` (R42). -/
def byteAddress (a : Word) (k : Nat) : Nat := (a + BitVec.ofNat 32 k).toNat

/-- The byte at `a`, or `draw` when nothing has written it (R38, U16, log 8). -/
def Memory.byteOr (m : Memory) (a : Nat) (draw : Byte) : Byte := (m.readByte a).getD draw

/-- `M[a]` (R42, R44); bytes that nothing has written are taken from the draw. -/
def Memory.readWord (m : Memory) (o : ByteOrder) (a draw : Word) : Word :=
  wordOfBytes o (m.byteOr (byteAddress a 0) (byteOfWord o draw 0)) (m.byteOr (byteAddress a 1) (byteOfWord o draw 1))
    (m.byteOr (byteAddress a 2) (byteOfWord o draw 2)) (m.byteOr (byteAddress a 3) (byteOfWord o draw 3))

/-- `MemWrite(a, 4, v)` (R45). -/
def Memory.writeWord (m : Memory) (o : ByteOrder) (a v : Word) : Memory :=
  (((m.writeByte (byteAddress a 0) (byteOfWord o v 0)).writeByte (byteAddress a 1) (byteOfWord o v 1)).writeByte
    (byteAddress a 2) (byteOfWord o v 2)).writeByte (byteAddress a 3) (byteOfWord o v 3)

/-! ## Which accesses exist and are allowed (R43, R45, R56) -/

/-- The address lies in the range. -/
def rangeHolds (r : WordRange) (a : Nat) : Bool :=
  decide (r.firstWord ≤ a / 4) && decide (a / 4 < r.firstWord + r.words)

/-- `a` is in MEM_VALID (R43). -/
def memValidAt (c : Config) (a : Nat) : Bool := c.memValid.any (fun r => rangeHolds r a)

/-- The ban covers the access. -/
def banCovers (b : AddrBan) (mode : Mode) (kind : AccessKind) (a : Word) : Bool :=
  b.mode == mode && b.kind == kind && decide (b.base ≤ a.toNat) && decide (a.toNat < b.base + b.size)

/-- `ADDR_OK(mode, a, kind)` (R45, R56). -/
def addrOk (c : Config) (mode : Mode) (a : Word) (kind : AccessKind) : Bool :=
  !c.addrBans.any (fun b => banCovers b mode kind a)

/-! ## Registers -/

/-- `x[r]` is hard-wired to zero: register 0 under `R0_ZERO` (R21). -/
def State.hardwired (s : State) (r : GReg) : Bool := s.cfg.r0Zero && r == 0

/-- `x[r]` (R20, R21). -/
def State.readReg (s : State) (r : GReg) : Word := if s.hardwired r then 0 else s.regs[r.toNat]

/-- `x[r] <- v` (R20, R21): the hard-wired register discards the value. -/
def State.writeReg (s : State) (r : GReg) (v : Word) : State :=
  if s.hardwired r then s else { s with regs := s.regs.set r.toNat v }

/-- `f[r]` (R26). -/
def State.readFReg (s : State) (r : FReg) : Word := s.fregs[r.toNat]

/-- `f[r] <- v` (R26). -/
def State.writeFReg (s : State) (r : FReg) (v : Word) : State := { s with fregs := s.fregs.set r.toNat v }

/-- `HI <- hi; LO <- lo` (R25). -/
def State.setHiLo (s : State) (hi lo : Word) : State := { s with hi := hi, lo := lo }

/-- `pc <- target` (R12). -/
def State.setPc (s : State) (target : Word) : State := { s with pc := target }

/-- `pc <- pc + 4`, modulo `2^32` (R24, D25). -/
def State.advance (s : State) : State := s.setPc (s.pc + 4)

/-- Memory after the byte `v` is stored at `a`. -/
def State.storeByte (s : State) (a : Word) (v : Byte) : State :=
  { s with mem := s.mem.writeByte (byteAddress a 0) v }

/-- Memory after the word `v` is stored at `a` in the run's byte order. -/
def State.storeWord (s : State) (a v : Word) : State :=
  { s with mem := s.mem.writeWord s.cfg.byteOrder a v }

/-! ## Draws (free values, log 7) -/

/-- The next draw. -/
def State.draw (s : State) : Word := Config.draw s.draws

/-- The draw after the next one. -/
def State.draw2 (s : State) : Word := Config.draw (s.draws + 1)

/-- The state with `n` draws used up. -/
def State.skipDraws (s : State) (n : Nat) : State := { s with draws := s.draws + n }

/-! ## Status and Cause (spec/10_state.md R31, R32) -/

/-- The bits of Status that have a function: 5..0, 15..8, 28, 29 (R31). -/
def statusFunctionMask : Word := 0x3000FF3F

/-- IEc (R31). -/
def State.interruptEnable (s : State) : Bool := s.status.getLsbD 0

/-- The current mode, KUc (R31, R225). -/
def State.mode (s : State) : Mode := if s.status.getLsbD 1 then .user else .kernel

/-- IM[7:0] (R31). -/
def State.interruptMask (s : State) : BitVec 8 := s.status.extractLsb' 8 8

/-- CU0 (R31). -/
def State.cu0 (s : State) : Bool := s.status.getLsbD 28

/-- CU1 (R31). -/
def State.cu1 (s : State) : Bool := s.status.getLsbD 29

/-- IP[7:0]: the six lines as sampled, above the two software requests (R32, R221). -/
def State.interruptPending (s : State) : BitVec 8 := s.irq ++ s.cause.ip

/-- The condition under which an interrupt is taken (R203 step 2, R220). -/
def State.interruptDue (s : State) : Bool :=
  s.interruptEnable && s.interruptPending &&& s.interruptMask != 0

/-- What `mfc0` reads from Status: the function fields exactly, a draw in the other bits (R31, U9). -/
def State.statusWord (s : State) : Word :=
  (s.status &&& statusFunctionMask) ||| (s.draw &&& ~~~statusFunctionMask)

/-- What `mfc0` reads from Cause: the fields exactly, a draw in bits 1..0, 7, 27..16 and 30 (R32, U9). -/
def State.causeWord (s : State) : Word :=
  s.cause.bd ++ s.draw.extractLsb' 30 1 ++ s.cause.ce ++ s.draw.extractLsb' 16 12 ++ s.irq ++ s.cause.ip ++
    s.draw.extractLsb' 7 1 ++ s.cause.excCode ++ s.draw.extractLsb' 0 2

/-! ## Exceptions (spec/60_exceptions.md) -/

/-- The exceptions of R200, each with what it records besides EPC and ExcCode. -/
inductive Exception where
  | interrupt
  | addressErrorLoad (bad : Word)
  | addressErrorStore (bad : Word)
  | syscall
  | breakpoint
  | reservedInstruction
  | coprocessorUnusable (unit : BitVec 2)
  | overflow
  deriving DecidableEq, Repr

/-- The code written to ExcCode (R200, D24). -/
def Exception.code (e : Exception) : BitVec 5 :=
  match e with
  | .interrupt => 0
  | .addressErrorLoad _ => 4
  | .addressErrorStore _ => 5
  | .syscall => 8
  | .breakpoint => 9
  | .reservedInstruction => 10
  | .coprocessorUnusable _ => 11
  | .overflow => 12

/-- CE after the exception: the co-processor's number, or a draw (R210, U18). -/
def Exception.ceField (e : Exception) (draw : Word) : BitVec 2 :=
  match e with
  | .coprocessorUnusable unit => unit
  | .interrupt | .addressErrorLoad _ | .addressErrorStore _ | .syscall | .breakpoint | .reservedInstruction
  | .overflow => draw.extractLsb' 0 2

/-- BadVAddr after the exception: written by the two address errors alone (R34, R210). -/
def Exception.badAddress (e : Exception) (old : Word) : Word :=
  match e with
  | .addressErrorLoad bad => bad
  | .addressErrorStore bad => bad
  | .interrupt | .syscall | .breakpoint | .reservedInstruction | .coprocessorUnusable _ | .overflow => old

/-- `c0[12][5:0] <- c0[12][3:0] ∥ 00`: the push of the mode and interrupt-enable stack (R210). -/
def pushStatus (st : Word) : Word := st.extractLsb' 6 26 ++ st.extractLsb' 0 4 ++ 0#2

/-- `c0[12][3:0] <- c0[12][5:2]`: the pop of the stack (R192, R211). -/
def popStatus (st : Word) : Word := st.extractLsb' 4 28 ++ st.extractLsb' 2 4

/-- Trap entry (R210): EPC is the address of the instruction, Cause gets the code, `BD = 0` and CE, BadVAddr the bad
address of an address error, the Status stack is pushed (kernel mode, interrupts disabled) and `pc` goes to
EXCEPTION_HANDLER. Nothing else of the machine changes; one draw is used up (CE, U18). -/
def trapEntry (e : Exception) (s : State) : State :=
  { s with
    epc := s.pc
    cause := { excCode := e.code, ip := s.cause.ip, ce := e.ceField s.draw, bd := 0 }
    badVAddr := e.badAddress s.badVAddr
    status := pushStatus s.status
    pc := s.cfg.exceptionHandler
    draws := s.draws + 1 }

/-- `raise E` (R12): the instruction is abandoned and trap entry is performed. -/
def raise (e : Exception) (s : State) : Result := .next (trapEntry e s)

/-- Return from an exception (R192, R211): the Status stack is popped by one level, nothing else changes. -/
def State.trapReturn (s : State) : State := { s with status := popStatus s.status }

/-! ## Which co-processor is usable (R206) -/

/-- Co-processor 0 is usable in kernel mode or with CU0. -/
def State.cp0Usable (s : State) : Bool := s.mode == .kernel || s.cu0

/-- The meaning `k` of a co-processor 0 instruction, behind the check of R206. -/
def withCp0 (s : State) (k : State → Result) : Result :=
  if s.cp0Usable then k s else raise (.coprocessorUnusable 0) s

/-- The meaning `k` of a co-processor 1 instruction, behind the check of R206. -/
def withCp1 (s : State) (k : State → Result) : Result :=
  if s.cu1 then k s else raise (.coprocessorUnusable 1) s

/-! ## Accesses (R45) -/

/-- The address error of an access kind (R45). -/
def addressError (kind : AccessKind) (a : Word) : Exception :=
  match kind with
  | .load | .fetch => .addressErrorLoad a
  | .store => .addressErrorStore a

/-- What the checks of R45 answer. -/
inductive AccessCheck where
  | ok
  | raises (e : Exception)
  | stuck (f : Fault)
  deriving DecidableEq, Repr

/-- The address is aligned for the width (R47). -/
def alignedFor (width : Width) (a : Word) : Bool :=
  match width with
  | .byte => true
  | .word => isAligned a

/-- `check(a, n, kind)` of R45, in its order: alignment, ADDR_OK, MEM_VALID. MEM_VALID is closed under word alignment,
so the first byte answers for all four. -/
def checkAccess (s : State) (width : Width) (kind : AccessKind) (a : Word) : AccessCheck :=
  if alignedFor width a && addrOk s.cfg s.mode a kind then
    if memValidAt s.cfg a.toNat then .ok else .stuck (.outsideMemValid kind a)
  else .raises (addressError kind a)

/-- The meaning `k` of an access, behind the checks of R45. -/
def withAccess (s : State) (width : Width) (kind : AccessKind) (a : Word) (k : Result) : Result :=
  match checkAccess s width kind a with
  | .ok => k
  | .raises e => raise e s
  | .stuck f => .fault f

/-- `MemRead(a, 4)` of a load (R45), its bytes that nothing has written drawn (R38). -/
def State.loadedWord (s : State) (a : Word) : Word := s.mem.readWord s.cfg.byteOrder a s.draw

/-- `MemRead(a, 1)` of a load (R45), drawn when nothing has written it (R38). -/
def State.loadedByte (s : State) (a : Word) : Byte := s.mem.byteOr (byteAddress a 0) (s.draw.extractLsb' 0 8)

/-- The effective address of a memory instruction (R57). -/
def State.ea (s : State) (rb : GReg) (imm : Imm16) : Word := effectiveAddress (s.readReg rb) imm

/-! ## Endings shared by the meanings -/

/-- `x[r] <- v; pc <- pc + 4`. -/
def finishReg (s : State) (r : GReg) (v : Word) : Result := .next (s.writeReg r v).advance

/-- `f[r] <- v; pc <- pc + 4`, one draw used up: the ending of the six computing instructions, whose invalid results
are draws (R169). `f[r]` holds the draw until it is written again, so that two reads of it agree, where R38 would also
allow a new draw at each read (DEDUCED, unsafe, log 12). -/
def finishFloat (s : State) (r : FReg) (v : Word) : Result := .next ((s.writeFReg r v).skipDraws 1).advance

/-- `HI <- hi; LO <- lo; pc <- pc + 4`. -/
def finishHiLo (s : State) (hi lo : Word) : Result := .next (s.setHiLo hi lo).advance

/-- `HI` and `LO` each receive a draw (R113, R117, U1, U2) and hold it until they are written again (DEDUCED, unsafe,
log 12); `pc <- pc + 4`. -/
def finishHiLoDrawn (s : State) : Result := .next ((s.setHiLo s.draw s.draw2).skipDraws 2).advance

/-- The ending of `add`, `sub`, `addi`: Overflow, or the result (R110, R207). -/
def finishTrapping (s : State) (overflows : Bool) (r : GReg) (v : Word) : Result :=
  if overflows then raise .overflow s else finishReg s r v

/-- The ending of a branch (R176): the target when the condition holds, else the next instruction. -/
def finishBranch (s : State) (taken : Bool) (imm : Imm16) : Result :=
  .next (if taken then s.setPc (branchTarget s.pc imm) else s.advance)

/-! ## The parts of a step before `exec` (R203) -/

/-- The start of a step: the lines are sampled (R203 step 1, R221); the draw of the fetch is used up. -/
def State.beginStep (s : State) : State :=
  { s with irq := s.irqIn.headD s.irq, irqIn := s.irqIn.tail, draws := s.draws + 1 }

/-- `I <- MemRead(pc, 4)` (R49, R203 step 5), its bytes that nothing has written drawn (R38). -/
def State.fetchedWord (s : State) : Word := s.mem.readWord s.cfg.byteOrder s.pc (Config.fetchDraw s.draws)

/-- Steps 2 to 6 of R203 on a state whose lines are sampled: Interrupt, the checks of the fetch, ReservedInstruction,
and otherwise `run` on the decoded instruction. -/
def fetchThen (s : State) (run : Instr → State → Result) : Result :=
  if s.interruptDue then raise .interrupt s
  else
    withAccess s .word .fetch s.pc <|
      match decodeWord s.fetchedWord with
      | some i => run i s
      | none => raise .reservedInstruction s

/-- The state with the word `w` stored where the next step fetches. -/
def State.placeInstruction (s : State) (w : Word) : State := s.storeWord s.pc w

end Sys2Proof.Machine
end

