-- ==== Sys2Proof/Machine/Arithmetic.lean ====
section
/-! DEFINITION. Sys2Proof/Machine/Arithmetic.lean: register arithmetic and logic (spec/41_arithmetic_logical.md R110 to
R121). -/

namespace Sys2Proof.Machine

/-- `add` (R110): Overflow when the exact signed sum does not fit. -/
def execAdd (rd rs rt : GReg) (s : State) : Result :=
  finishTrapping s (addOverflows (s.readReg rs) (s.readReg rt)) rd (s.readReg rs + s.readReg rt)

/-- `sub` (R111): Overflow when the exact signed difference does not fit. -/
def execSub (rd rs rt : GReg) (s : State) : Result :=
  finishTrapping s (subOverflows (s.readReg rs) (s.readReg rt)) rd (s.readReg rs - s.readReg rt)

/-- `HI ∥ LO <- p mod 2^64` (R112, R116). -/
def finishProduct (s : State) (p : Int) : Result :=
  finishHiLo s ((BitVec.ofInt 64 p).extractLsb' 32 32) ((BitVec.ofInt 64 p).extractLsb' 0 32)

/-- `mult` (R112): the exact signed product. -/
def execMult (rs rt : GReg) (s : State) : Result :=
  finishProduct s ((s.readReg rs).toInt * (s.readReg rt).toInt)

/-- The signed quotient under SDIV (R113, U23); the flooring one is the model's second setting (log 5). -/
def signedQuotient (rounding : DivRounding) (a b : Int) : Int :=
  match rounding with
  | .truncate => a.tdiv b
  | .floor => a.fdiv b

/-- The operands for which R113 leaves HI and LO unspecified: a zero divisor, and `-2^31 div -1`. -/
def divUnspecified (a b : Int) : Bool := b == 0 || (a == -0x80000000 && b == -1)

/-- `div` (R113): the quotient in LO, `a - q * b` in HI. -/
def execDiv (rs rt : GReg) (s : State) : Result :=
  let a := (s.readReg rs).toInt
  let b := (s.readReg rt).toInt
  let q := signedQuotient s.cfg.divRounding a b
  if divUnspecified a b then finishHiLoDrawn s
  else finishHiLo s (BitVec.ofInt 32 (a - q * b)) (BitVec.ofInt 32 q)

/-- `addu` (R114): modulo `2^32`. -/
def execAddu (rd rs rt : GReg) (s : State) : Result := finishReg s rd (s.readReg rs + s.readReg rt)

/-- `subu` (R115): modulo `2^32`. -/
def execSubu (rd rs rt : GReg) (s : State) : Result := finishReg s rd (s.readReg rs - s.readReg rt)

/-- `multu` (R116): the exact unsigned product. -/
def execMultu (rs rt : GReg) (s : State) : Result :=
  finishProduct s (((s.readReg rs).toNat * (s.readReg rt).toNat : Nat) : Int)

/-- `divu` (R117): a zero divisor leaves HI and LO unspecified. -/
def execDivu (rs rt : GReg) (s : State) : Result :=
  let a := (s.readReg rs).toNat
  let b := (s.readReg rt).toNat
  if b = 0 then finishHiLoDrawn s
  else finishHiLo s (BitVec.ofNat 32 (a % b)) (BitVec.ofNat 32 (a / b))

/-- `and` (R118). -/
def execAnd (rd rs rt : GReg) (s : State) : Result := finishReg s rd (s.readReg rs &&& s.readReg rt)

/-- `nor` (R119): the complement of OR. -/
def execNor (rd rs rt : GReg) (s : State) : Result := finishReg s rd (~~~(s.readReg rs ||| s.readReg rt))

/-- `or` (R120). -/
def execOr (rd rs rt : GReg) (s : State) : Result := finishReg s rd (s.readReg rs ||| s.readReg rt)

/-- `xor` (R121). -/
def execXor (rd rs rt : GReg) (s : State) : Result := finishReg s rd (s.readReg rs ^^^ s.readReg rt)

end Sys2Proof.Machine
end

