-- ==== Sys2Proof/Machine/Branches.lean ====
section
/-! DEFINITION. Sys2Proof/Machine/Branches.lean: conditional branches (spec/46_branches.md R170 to R176). No delay slot. -/

namespace Sys2Proof.Machine

/-- `bltz` (R170). -/
def execBltz (rs : GReg) (imm : Imm16) (s : State) : Result := finishBranch s (isNegative (s.readReg rs)) imm

/-- `bgez` (R171). -/
def execBgez (rs : GReg) (imm : Imm16) (s : State) : Result := finishBranch s (!isNegative (s.readReg rs)) imm

/-- `blez` (R172). -/
def execBlez (rs : GReg) (imm : Imm16) (s : State) : Result :=
  finishBranch s (isNegative (s.readReg rs) || isZero (s.readReg rs)) imm

/-- `bgtz` (R173). -/
def execBgtz (rs : GReg) (imm : Imm16) (s : State) : Result :=
  finishBranch s (!isNegative (s.readReg rs) && !isZero (s.readReg rs)) imm

/-- `beq` (R174). -/
def execBeq (rs rt : GReg) (imm : Imm16) (s : State) : Result :=
  finishBranch s (s.readReg rs == s.readReg rt) imm

/-- `bne` (R175). -/
def execBne (rs rt : GReg) (imm : Imm16) (s : State) : Result :=
  finishBranch s (s.readReg rs != s.readReg rt) imm

end Sys2Proof.Machine
end

