-- ==== Sys2Proof/Machine/CompareJump.lean ====
section
/-! DEFINITION. Sys2Proof/Machine/CompareJump.lean: comparison and jumps (spec/47_compare_jump.md R180 to R185). -/

namespace Sys2Proof.Machine

/-- `slt` (R180). -/
def execSlt (rd rs rt : GReg) (s : State) : Result :=
  finishReg s rd (if signedLess (s.readReg rs) (s.readReg rt) then 1 else 0)

/-- `slti` (R181). -/
def execSlti (rt rs : GReg) (imm : Imm16) (s : State) : Result :=
  finishReg s rt (if signedLess (s.readReg rs) (signExtImm imm) then 1 else 0)

/-- `j` (R182). -/
def execJ (target : Target) (s : State) : Result := .next (s.setPc (jumpTarget s.pc target))

/-- `jr` (R183): all 32 bits, nothing masked; a misaligned target faults at the next fetch. -/
def execJr (rs : GReg) (s : State) : Result := .next (s.setPc (s.readReg rs))

/-- `jal` (R184): register 31 receives the address after the `jal`. -/
def execJal (target : Target) (s : State) : Result :=
  .next ((s.writeReg 31 (s.pc + 4)).setPc (jumpTarget s.pc target))

/-- `jalr` (R185): the target is read before the link is written; `d = s` is refused (D20). -/
def execJalr (rd rs : GReg) (s : State) : Result :=
  if rd = rs then .refused .jalrLinkIsTarget else .next ((s.writeReg rd (s.pc + 4)).setPc (s.readReg rs))

end Sys2Proof.Machine
end

