-- ==== Sys2Proof/Machine/FloatingPoint.lean ====
section
/-! DEFINITION. Sys2Proof/Machine/FloatingPoint.lean: the co-processor 1 instructions of spec/45_floating_point.md (R160 to
R167). All eight check CU1 first (R206). The six computing instructions use the record of `State.cfg.fp` (R168). -/

namespace Sys2Proof.Machine

/-- `lwc1` (R160). -/
def execLwc1 (ft : FReg) (rb : GReg) (imm : Imm16) (s : State) : Result :=
  withCp1 s fun s =>
    withAccess s .word .load (s.ea rb imm)
      (.next ((s.writeFReg ft (s.loadedWord (s.ea rb imm))).skipDraws 1).advance)

/-- `swc1` (R161). -/
def execSwc1 (ft : FReg) (rb : GReg) (imm : Imm16) (s : State) : Result :=
  withCp1 s fun s =>
    withAccess s .word .store (s.ea rb imm) (.next (s.storeWord (s.ea rb imm) (s.readFReg ft)).advance)

/-- `add.s` (R162). -/
def execAddS (fd fs ft : FReg) (s : State) : Result :=
  withCp1 s fun s => finishFloat s fd (fpAdd s.cfg.fp (s.readFReg fs) (s.readFReg ft) s.draw)

/-- `sub.s` (R163). -/
def execSubS (fd fs ft : FReg) (s : State) : Result :=
  withCp1 s fun s => finishFloat s fd (fpSub s.cfg.fp (s.readFReg fs) (s.readFReg ft) s.draw)

/-- `mul.s` (R164). -/
def execMulS (fd fs ft : FReg) (s : State) : Result :=
  withCp1 s fun s => finishFloat s fd (fpMul s.cfg.fp (s.readFReg fs) (s.readFReg ft) s.draw)

/-- `div.s` (R165). -/
def execDivS (fd fs ft : FReg) (s : State) : Result :=
  withCp1 s fun s => finishFloat s fd (fpDiv s.cfg.fp (s.readFReg fs) (s.readFReg ft) s.draw)

/-- `cvt.s.w` (R166). -/
def execCvtSW (fd fs : FReg) (s : State) : Result :=
  withCp1 s fun s => finishFloat s fd (fpCvtSW s.cfg.fp (s.readFReg fs))

/-- `cvt.w.s` (R167). -/
def execCvtWS (fd fs : FReg) (s : State) : Result :=
  withCp1 s fun s => finishFloat s fd (fpCvtWS s.cfg.fp (s.readFReg fs) s.draw)

end Sys2Proof.Machine
end

