-- ==== Sys2Proof/Machine/HiLo.lean ====
section
/-! DEFINITION. Sys2Proof/Machine/HiLo.lean: moves to and from HI and LO (spec/43_hilo_moves.md R140 to R143). -/

namespace Sys2Proof.Machine

/-- `mfhi` (R140). -/
def execMfhi (rd : GReg) (s : State) : Result := finishReg s rd s.hi

/-- `mthi` (R141): LO keeps its value. -/
def execMthi (rs : GReg) (s : State) : Result := finishHiLo s (s.readReg rs) s.lo

/-- `mflo` (R142). -/
def execMflo (rd : GReg) (s : State) : Result := finishReg s rd s.lo

/-- `mtlo` (R143): HI keeps its value. -/
def execMtlo (rs : GReg) (s : State) : Result := finishHiLo s s.hi (s.readReg rs)

end Sys2Proof.Machine
end

