-- ==== Sys2Proof/Machine/Immediate.lean ====
section
/-! DEFINITION. Sys2Proof/Machine/Immediate.lean: immediate arithmetic and logic (spec/42_immediate.md R130 to R135).
`addi` and `addiu` sign-extend the immediate; `andi`, `ori`, `xori` zero-extend it (R64). -/

namespace Sys2Proof.Machine

/-- `addi` (R130): Overflow when the exact signed sum does not fit. -/
def execAddi (rt rs : GReg) (imm : Imm16) (s : State) : Result :=
  finishTrapping s (addOverflows (s.readReg rs) (signExtImm imm)) rt (s.readReg rs + signExtImm imm)

/-- `addiu` (R131): modulo `2^32`. -/
def execAddiu (rt rs : GReg) (imm : Imm16) (s : State) : Result := finishReg s rt (s.readReg rs + signExtImm imm)

/-- `andi` (R132). -/
def execAndi (rt rs : GReg) (imm : Imm16) (s : State) : Result := finishReg s rt (s.readReg rs &&& zeroExtImm imm)

/-- `lui` (R133). -/
def execLui (rt : GReg) (imm : Imm16) (s : State) : Result := finishReg s rt (upperImm imm)

/-- `ori` (R134). -/
def execOri (rt rs : GReg) (imm : Imm16) (s : State) : Result := finishReg s rt (s.readReg rs ||| zeroExtImm imm)

/-- `xori` (R135). -/
def execXori (rt rs : GReg) (imm : Imm16) (s : State) : Result := finishReg s rt (s.readReg rs ^^^ zeroExtImm imm)

end Sys2Proof.Machine
end

