-- ==== Sys2Proof/Machine/LoadStore.lean ====
section
/-! DEFINITION. Sys2Proof/Machine/LoadStore.lean: loads and stores (spec/40_load_store.md R100 to R104). Loads use up one
draw, for the bytes that nothing has written. -/

namespace Sys2Proof.Machine

/-- `lw` (R100). -/
def execLw (rt rb : GReg) (imm : Imm16) (s : State) : Result :=
  withAccess s .word .load (s.ea rb imm) (finishReg (s.skipDraws 1) rt (s.loadedWord (s.ea rb imm)))

/-- `lb` (R101): the byte sign-extended. -/
def execLb (rt rb : GReg) (imm : Imm16) (s : State) : Result :=
  withAccess s .byte .load (s.ea rb imm)
    (finishReg (s.skipDraws 1) rt ((s.loadedByte (s.ea rb imm)).signExtend 32))

/-- `lbu` (R102): the byte zero-extended. -/
def execLbu (rt rb : GReg) (imm : Imm16) (s : State) : Result :=
  withAccess s .byte .load (s.ea rb imm)
    (finishReg (s.skipDraws 1) rt ((s.loadedByte (s.ea rb imm)).setWidth 32))

/-- `sw` (R103). -/
def execSw (rt rb : GReg) (imm : Imm16) (s : State) : Result :=
  withAccess s .word .store (s.ea rb imm) (.next (s.storeWord (s.ea rb imm) (s.readReg rt)).advance)

/-- `sb` (R104): bits 7..0 of the register. -/
def execSb (rt rb : GReg) (imm : Imm16) (s : State) : Result :=
  withAccess s .byte .store (s.ea rb imm)
    (.next (s.storeByte (s.ea rb imm) ((s.readReg rt).extractLsb' 0 8)).advance)

end Sys2Proof.Machine
end

