-- ==== Sys2Proof/Machine/Shifts.lean ====
section
/-! DEFINITION. Sys2Proof/Machine/Shifts.lean: shifts (spec/44_shifts.md R150 to R155). The value is `x[t]`; the amount is
the field `sh` or bits 4..0 of `x[s]`. -/

namespace Sys2Proof.Machine

/-- `sll` (R150). -/
def execSll (rd rt : GReg) (sh : Shamt) (s : State) : Result := finishReg s rd (shiftLeft (s.readReg rt) sh)

/-- `srl` (R151). -/
def execSrl (rd rt : GReg) (sh : Shamt) (s : State) : Result := finishReg s rd (shiftRightLogical (s.readReg rt) sh)

/-- `sra` (R152). -/
def execSra (rd rt : GReg) (sh : Shamt) (s : State) : Result := finishReg s rd (shiftRightArith (s.readReg rt) sh)

/-- `sllv` (R153). -/
def execSllv (rd rt rs : GReg) (s : State) : Result :=
  finishReg s rd (shiftLeft (s.readReg rt) (shiftAmount (s.readReg rs)))

/-- `srlv` (R154). -/
def execSrlv (rd rt rs : GReg) (s : State) : Result :=
  finishReg s rd (shiftRightLogical (s.readReg rt) (shiftAmount (s.readReg rs)))

/-- `srav` (R155). -/
def execSrav (rd rt rs : GReg) (s : State) : Result :=
  finishReg s rd (shiftRightArith (s.readReg rt) (shiftAmount (s.readReg rs)))

end Sys2Proof.Machine
end

