-- ==== Sys2Proof/Machine/System.lean ====
section
/-! DEFINITION. Sys2Proof/Machine/System.lean: system instructions and co-processor moves (spec/48_system_coprocessor.md
R190 to R196). -/

namespace Sys2Proof.Machine

/-- `syscall` (R190). -/
def execSyscall (s : State) : Result := raise .syscall s

/-- `break` (R191): the free bits do nothing (R82). -/
def execBrk (_upper : BitVec 14) (_lower : BitVec 5) (s : State) : Result := raise .breakpoint s

/-- `rfe` (R192): pops the Status stack; `pc` only advances. -/
def execRfe (s : State) : Result := withCp0 s fun s => .next s.trapReturn.advance

/-- The value `mfc0` reads from control register `cd`, `none` where there is no register (R31 to R35). -/
def State.readControl (s : State) (cd : CReg) : Option Word :=
  if cd = 8 then some s.badVAddr
  else if cd = 12 then some s.statusWord
  else if cd = 13 then some s.causeWord
  else if cd = 14 then some s.epc
  else none

/-- `mfc0` (R193): uses up one draw, for the bits that have no function (U9). -/
def execMfc0 (rt : GReg) (cd : CReg) (s : State) : Result :=
  withCp0 s fun s =>
    match s.readControl cd with
    | some v => finishReg (s.skipDraws 1) rt v
    | none => .refused (.controlRegisterAbsent cd)

/-- `c0[12] <- v` (R194). -/
def State.writeStatus (s : State) (v : Word) : State := { s with status := v }

/-- `c0[13][9:8] <- v[9:8]`, nothing else of Cause (R32, R194). -/
def State.writeCause (s : State) (v : Word) : State :=
  { s with cause := { s.cause with ip := v.extractLsb' 8 2 } }

/-- `mtc0` (R194): Status and Cause; EPC and BadVAddr are read-only (R33, R34), the other numbers absent (R35). -/
def execMtc0 (rt : GReg) (cd : CReg) (s : State) : Result :=
  withCp0 s fun s =>
    if cd = 12 then .next (s.writeStatus (s.readReg rt)).advance
    else if cd = 13 then .next (s.writeCause (s.readReg rt)).advance
    else if cd = 8 ∨ cd = 14 then .refused (.controlRegisterReadOnly cd)
    else .refused (.controlRegisterAbsent cd)

/-- `mfc1` (R195): the bits are copied, not converted. -/
def execMfc1 (rt : GReg) (fd : FReg) (s : State) : Result :=
  withCp1 s fun s => finishReg s rt (s.readFReg fd)

/-- `mtc1` (R196): the bits are copied, not converted. -/
def execMtc1 (rt : GReg) (fd : FReg) (s : State) : Result :=
  withCp1 s fun s => .next (s.writeFReg fd (s.readReg rt)).advance

end Sys2Proof.Machine
end

