-- ==== Sys2Proof/Machine/Dispatch.lean ====
section
/-! DEFINITION. Sys2Proof/Machine/Dispatch.lean: the meaning of each instruction, one arm per constructor of `Instr`, in
the order of the opcode table (spec/30_encoding.md R70). -/

namespace Sys2Proof.Machine

def exec (i : Instr) (s : State) : Host.Outcome State Fault Refusal :=
  match i with
  | .lw rt rb imm => Sys2Proof.Machine.execLw rt rb imm s
  | .lb rt rb imm => Sys2Proof.Machine.execLb rt rb imm s
  | .lbu rt rb imm => Sys2Proof.Machine.execLbu rt rb imm s
  | .sw rt rb imm => Sys2Proof.Machine.execSw rt rb imm s
  | .sb rt rb imm => Sys2Proof.Machine.execSb rt rb imm s
  | .add rd rs rt => Sys2Proof.Machine.execAdd rd rs rt s
  | .sub rd rs rt => Sys2Proof.Machine.execSub rd rs rt s
  | .mult rs rt => Sys2Proof.Machine.execMult rs rt s
  | .div rs rt => Sys2Proof.Machine.execDiv rs rt s
  | .addu rd rs rt => Sys2Proof.Machine.execAddu rd rs rt s
  | .subu rd rs rt => Sys2Proof.Machine.execSubu rd rs rt s
  | .multu rs rt => Sys2Proof.Machine.execMultu rs rt s
  | .divu rs rt => Sys2Proof.Machine.execDivu rs rt s
  | .and rd rs rt => Sys2Proof.Machine.execAnd rd rs rt s
  | .nor rd rs rt => Sys2Proof.Machine.execNor rd rs rt s
  | .or rd rs rt => Sys2Proof.Machine.execOr rd rs rt s
  | .xor rd rs rt => Sys2Proof.Machine.execXor rd rs rt s
  | .addi rt rs imm => Sys2Proof.Machine.execAddi rt rs imm s
  | .addiu rt rs imm => Sys2Proof.Machine.execAddiu rt rs imm s
  | .andi rt rs imm => Sys2Proof.Machine.execAndi rt rs imm s
  | .lui rt imm => Sys2Proof.Machine.execLui rt imm s
  | .ori rt rs imm => Sys2Proof.Machine.execOri rt rs imm s
  | .xori rt rs imm => Sys2Proof.Machine.execXori rt rs imm s
  | .mfhi rd => Sys2Proof.Machine.execMfhi rd s
  | .mthi rs => Sys2Proof.Machine.execMthi rs s
  | .mflo rd => Sys2Proof.Machine.execMflo rd s
  | .mtlo rs => Sys2Proof.Machine.execMtlo rs s
  | .sll rd rt sh => Sys2Proof.Machine.execSll rd rt sh s
  | .srl rd rt sh => Sys2Proof.Machine.execSrl rd rt sh s
  | .sra rd rt sh => Sys2Proof.Machine.execSra rd rt sh s
  | .sllv rd rt rs => Sys2Proof.Machine.execSllv rd rt rs s
  | .srlv rd rt rs => Sys2Proof.Machine.execSrlv rd rt rs s
  | .srav rd rt rs => Sys2Proof.Machine.execSrav rd rt rs s
  | .lwc1 ft rb imm => Sys2Proof.Machine.execLwc1 ft rb imm s
  | .swc1 ft rb imm => Sys2Proof.Machine.execSwc1 ft rb imm s
  | .addS fd fs ft => Sys2Proof.Machine.execAddS fd fs ft s
  | .subS fd fs ft => Sys2Proof.Machine.execSubS fd fs ft s
  | .mulS fd fs ft => Sys2Proof.Machine.execMulS fd fs ft s
  | .divS fd fs ft => Sys2Proof.Machine.execDivS fd fs ft s
  | .cvtSW fd fs => Sys2Proof.Machine.execCvtSW fd fs s
  | .cvtWS fd fs => Sys2Proof.Machine.execCvtWS fd fs s
  | .bltz rs imm => Sys2Proof.Machine.execBltz rs imm s
  | .bgez rs imm => Sys2Proof.Machine.execBgez rs imm s
  | .blez rs imm => Sys2Proof.Machine.execBlez rs imm s
  | .bgtz rs imm => Sys2Proof.Machine.execBgtz rs imm s
  | .beq rs rt imm => Sys2Proof.Machine.execBeq rs rt imm s
  | .bne rs rt imm => Sys2Proof.Machine.execBne rs rt imm s
  | .slt rd rs rt => Sys2Proof.Machine.execSlt rd rs rt s
  | .slti rt rs imm => Sys2Proof.Machine.execSlti rt rs imm s
  | .j target => Sys2Proof.Machine.execJ target s
  | .jr rs => Sys2Proof.Machine.execJr rs s
  | .jal target => Sys2Proof.Machine.execJal target s
  | .jalr rd rs => Sys2Proof.Machine.execJalr rd rs s
  | .syscall => Sys2Proof.Machine.execSyscall s
  | .brk upper lower => Sys2Proof.Machine.execBrk upper lower s
  | .rfe => Sys2Proof.Machine.execRfe s
  | .mfc0 rt cd => Sys2Proof.Machine.execMfc0 rt cd s
  | .mtc0 rt cd => Sys2Proof.Machine.execMtc0 rt cd s
  | .mfc1 rt fd => Sys2Proof.Machine.execMfc1 rt fd s
  | .mtc1 rt fd => Sys2Proof.Machine.execMtc1 rt fd s

end Sys2Proof.Machine
end

