-- ==== Sys2Proof/Machine/Step.lean ====
section
/-! DEFINITION. Sys2Proof/Machine/Step.lean: one step of the processor (spec/60_exceptions.md R203), and the placing of one
instruction where the next step fetches. -/

namespace Sys2Proof.Machine

/-- One step (R203): the lines are sampled; an interrupt that is due, a bad fetch address or a reserved word is taken
as an exception; otherwise the fetched instruction executes. -/
def step (s : State) : Host.Outcome State Fault Refusal := fetchThen s.beginStep exec

/-- The host's placing of one instruction: the word whose bits are `w` (those above `nbits` being 0) stored at `pc` in the
run's byte order. Nothing else changes. -/
def State.withFetchWord (s : State) (nbits w : Nat) : State :=
  s.placeInstruction (BitVec.ofNat 32 (w % 2 ^ nbits))

end Sys2Proof.Machine
end

