-- ==== Sys2Proof/Safety.lean ====
section
/-! DEFINITION. Sys2Proof/Safety.lean: the words that claims about this machine use: the invariant of a state, what an
instruction may write, which exceptions it may raise, and the opcode table as the spec prints it. -/

namespace Sys2Proof

/-! ## The opcode table as printed (spec/30_encoding.md R70) -/

/-- The mnemonic of R70 that a constructor stands for. -/
def Instr.mnemonic (i : Instr) : String :=
  match i with
  | .lw .. => "lw"
  | .lb .. => "lb"
  | .lbu .. => "lbu"
  | .sw .. => "sw"
  | .sb .. => "sb"
  | .add .. => "add"
  | .sub .. => "sub"
  | .mult .. => "mult"
  | .div .. => "div"
  | .addu .. => "addu"
  | .subu .. => "subu"
  | .multu .. => "multu"
  | .divu .. => "divu"
  | .and .. => "and"
  | .nor .. => "nor"
  | .or .. => "or"
  | .xor .. => "xor"
  | .addi .. => "addi"
  | .addiu .. => "addiu"
  | .andi .. => "andi"
  | .lui .. => "lui"
  | .ori .. => "ori"
  | .xori .. => "xori"
  | .mfhi .. => "mfhi"
  | .mthi .. => "mthi"
  | .mflo .. => "mflo"
  | .mtlo .. => "mtlo"
  | .sll .. => "sll"
  | .srl .. => "srl"
  | .sra .. => "sra"
  | .sllv .. => "sllv"
  | .srlv .. => "srlv"
  | .srav .. => "srav"
  | .lwc1 .. => "lwc1"
  | .swc1 .. => "swc1"
  | .addS .. => "add.s"
  | .subS .. => "sub.s"
  | .mulS .. => "mul.s"
  | .divS .. => "div.s"
  | .cvtSW .. => "cvt.s.w"
  | .cvtWS .. => "cvt.w.s"
  | .bltz .. => "bltz"
  | .bgez .. => "bgez"
  | .blez .. => "blez"
  | .bgtz .. => "bgtz"
  | .beq .. => "beq"
  | .bne .. => "bne"
  | .slt .. => "slt"
  | .slti .. => "slti"
  | .j .. => "j"
  | .jr .. => "jr"
  | .jal .. => "jal"
  | .jalr .. => "jalr"
  | .syscall => "syscall"
  | .brk .. => "break"
  | .rfe => "rfe"
  | .mfc0 .. => "mfc0"
  | .mtc0 .. => "mtc0"
  | .mfc1 .. => "mfc1"
  | .mtc1 .. => "mtc1"

/-- A row of R70 as printed: mnemonic, Machine Code pattern, match and mask. -/
structure PrintedRow where
  mnemonic : String
  pattern : String
  pat : Word
  mask : Word
  deriving DecidableEq, Repr

/-- A word written down from a pattern, a 1 where `one` holds of the pattern's character; spaces mean nothing (R60). -/
def wordOfPattern (one : Char → Bool) (pattern : String) : Word :=
  pattern.toList.foldl (fun w c => if c = ' ' then w else w <<< 1 ||| (if one c then 1 else 0)) 0

/-- The 60 rows of R70. Transcribed apart from the decoder's own table. -/
def printedRows : List PrintedRow :=
  [⟨"lw", "1000 11bb bbbt tttt iiii iiii iiii iiii", 0x8C000000#32, 0xFC000000#32⟩,
   ⟨"lb", "1000 00bb bbbt tttt iiii iiii iiii iiii", 0x80000000#32, 0xFC000000#32⟩,
   ⟨"lbu", "1001 00bb bbbt tttt iiii iiii iiii iiii", 0x90000000#32, 0xFC000000#32⟩,
   ⟨"sw", "1010 11bb bbbt tttt iiii iiii iiii iiii", 0xAC000000#32, 0xFC000000#32⟩,
   ⟨"sb", "1010 00bb bbbt tttt iiii iiii iiii iiii", 0xA0000000#32, 0xFC000000#32⟩,
   ⟨"add", "0000 00ss ssst tttt dddd d000 0010 0000", 0x00000020#32, 0xFC0007FF#32⟩,
   ⟨"sub", "0000 00ss ssst tttt dddd d000 0010 0010", 0x00000022#32, 0xFC0007FF#32⟩,
   ⟨"mult", "0000 00ss ssst tttt 0000 0000 0001 1000", 0x00000018#32, 0xFC00FFFF#32⟩,
   ⟨"div", "0000 00ss ssst tttt 0000 0000 0001 1010", 0x0000001A#32, 0xFC00FFFF#32⟩,
   ⟨"addu", "0000 00ss ssst tttt dddd d000 0010 0001", 0x00000021#32, 0xFC0007FF#32⟩,
   ⟨"subu", "0000 00ss ssst tttt dddd d000 0010 0011", 0x00000023#32, 0xFC0007FF#32⟩,
   ⟨"multu", "0000 00ss ssst tttt 0000 0000 0001 1001", 0x00000019#32, 0xFC00FFFF#32⟩,
   ⟨"divu", "0000 00ss ssst tttt 0000 0000 0001 1011", 0x0000001B#32, 0xFC00FFFF#32⟩,
   ⟨"and", "0000 00ss ssst tttt dddd d000 0010 0100", 0x00000024#32, 0xFC0007FF#32⟩,
   ⟨"nor", "0000 00ss ssst tttt dddd d000 0010 0111", 0x00000027#32, 0xFC0007FF#32⟩,
   ⟨"or", "0000 00ss ssst tttt dddd d000 0010 0101", 0x00000025#32, 0xFC0007FF#32⟩,
   ⟨"xor", "0000 00ss ssst tttt dddd d000 0010 0110", 0x00000026#32, 0xFC0007FF#32⟩,
   ⟨"addi", "0010 00ss ssst tttt iiii iiii iiii iiii", 0x20000000#32, 0xFC000000#32⟩,
   ⟨"addiu", "0010 01ss ssst tttt iiii iiii iiii iiii", 0x24000000#32, 0xFC000000#32⟩,
   ⟨"andi", "0011 00ss ssst tttt iiii iiii iiii iiii", 0x30000000#32, 0xFC000000#32⟩,
   ⟨"lui", "0011 1100 000t tttt iiii iiii iiii iiii", 0x3C000000#32, 0xFFE00000#32⟩,
   ⟨"ori", "0011 01ss ssst tttt iiii iiii iiii iiii", 0x34000000#32, 0xFC000000#32⟩,
   ⟨"xori", "0011 10ss ssst tttt iiii iiii iiii iiii", 0x38000000#32, 0xFC000000#32⟩,
   ⟨"mfhi", "0000 0000 0000 0000 dddd d000 0001 0000", 0x00000010#32, 0xFFFF07FF#32⟩,
   ⟨"mthi", "0000 00ss sss0 0000 0000 0000 0001 0001", 0x00000011#32, 0xFC1FFFFF#32⟩,
   ⟨"mflo", "0000 0000 0000 0000 dddd d000 0001 0010", 0x00000012#32, 0xFFFF07FF#32⟩,
   ⟨"mtlo", "0000 00ss sss0 0000 0000 0000 0001 0011", 0x00000013#32, 0xFC1FFFFF#32⟩,
   ⟨"sll", "0000 0000 000t tttt dddd diii ii00 0000", 0x00000000#32, 0xFFE0003F#32⟩,
   ⟨"srl", "0000 0000 000t tttt dddd diii ii00 0010", 0x00000002#32, 0xFFE0003F#32⟩,
   ⟨"sra", "0000 0000 000t tttt dddd diii ii00 0011", 0x00000003#32, 0xFFE0003F#32⟩,
   ⟨"sllv", "0000 00ss ssst tttt dddd d000 0000 0100", 0x00000004#32, 0xFC0007FF#32⟩,
   ⟨"srlv", "0000 00ss ssst tttt dddd d000 0000 0110", 0x00000006#32, 0xFC0007FF#32⟩,
   ⟨"srav", "0000 00ss ssst tttt dddd d000 0000 0111", 0x00000007#32, 0xFC0007FF#32⟩,
   ⟨"lwc1", "1100 01bb bbbt tttt iiii iiii iiii iiii", 0xC4000000#32, 0xFC000000#32⟩,
   ⟨"swc1", "1110 01bb bbbt tttt iiii iiii iiii iiii", 0xE4000000#32, 0xFC000000#32⟩,
   ⟨"add.s", "0100 0110 000t tttt ssss sddd dd00 0000", 0x46000000#32, 0xFFE0003F#32⟩,
   ⟨"sub.s", "0100 0110 000t tttt ssss sddd dd00 0001", 0x46000001#32, 0xFFE0003F#32⟩,
   ⟨"mul.s", "0100 0110 000t tttt ssss sddd dd00 0010", 0x46000002#32, 0xFFE0003F#32⟩,
   ⟨"div.s", "0100 0110 000t tttt ssss sddd dd00 0011", 0x46000003#32, 0xFFE0003F#32⟩,
   ⟨"cvt.s.w", "0100 0110 1000 0000 ssss sddd dd10 0000", 0x46800020#32, 0xFFFF003F#32⟩,
   ⟨"cvt.w.s", "0100 0110 0000 0000 ssss sddd dd10 0100", 0x46000024#32, 0xFFFF003F#32⟩,
   ⟨"bltz", "0000 01ss sss0 0000 iiii iiii iiii iiii", 0x04000000#32, 0xFC1F0000#32⟩,
   ⟨"bgez", "0000 01ss sss0 0001 iiii iiii iiii iiii", 0x04010000#32, 0xFC1F0000#32⟩,
   ⟨"blez", "0001 10ss sss0 0000 iiii iiii iiii iiii", 0x18000000#32, 0xFC1F0000#32⟩,
   ⟨"bgtz", "0001 11ss sss0 0000 iiii iiii iiii iiii", 0x1C000000#32, 0xFC1F0000#32⟩,
   ⟨"beq", "0001 00ss ssst tttt iiii iiii iiii iiii", 0x10000000#32, 0xFC000000#32⟩,
   ⟨"bne", "0001 01ss ssst tttt iiii iiii iiii iiii", 0x14000000#32, 0xFC000000#32⟩,
   ⟨"slt", "0000 00ss ssst tttt dddd d000 0010 1010", 0x0000002A#32, 0xFC0007FF#32⟩,
   ⟨"slti", "0010 10ss ssst tttt iiii iiii iiii iiii", 0x28000000#32, 0xFC000000#32⟩,
   ⟨"j", "0000 10ii iiii iiii iiii iiii iiii iiii", 0x08000000#32, 0xFC000000#32⟩,
   ⟨"jr", "0000 00ss sss0 0000 0000 0000 0000 1000", 0x00000008#32, 0xFC1FFFFF#32⟩,
   ⟨"jal", "0000 11ii iiii iiii iiii iiii iiii iiii", 0x0C000000#32, 0xFC000000#32⟩,
   ⟨"jalr", "0000 00ss sss0 0000 dddd d000 0000 1001", 0x00000009#32, 0xFC1F07FF#32⟩,
   ⟨"syscall", "0000 0000 0000 0000 0000 0000 0000 1100", 0x0000000C#32, 0xFFFFFFFF#32⟩,
   ⟨"break", "0000 00xx xxxx xxxx xxxx 0xxx xx00 1101", 0x0000000D#32, 0xFC00083F#32⟩,
   ⟨"rfe", "0100 0010 0000 0000 0000 0000 0001 0000", 0x42000010#32, 0xFFFFFFFF#32⟩,
   ⟨"mfc0", "0100 0000 000t tttt dddd d000 0000 0000", 0x40000000#32, 0xFFE007FF#32⟩,
   ⟨"mtc0", "0100 0000 100t tttt dddd d000 0000 0000", 0x40800000#32, 0xFFE007FF#32⟩,
   ⟨"mfc1", "0100 0100 000t tttt dddd d000 0000 0000", 0x44000000#32, 0xFFE007FF#32⟩,
   ⟨"mtc1", "0100 0100 100t tttt dddd d000 0000 0000", 0x44800000#32, 0xFFE007FF#32⟩]

end Sys2Proof

namespace Sys2Proof.Machine

/-! ## The invariant of a state -/

/-- What every state of a run satisfies, whatever the parameters. -/
structure State.Inv (s : State) : Prop where
  /-- Memory is in its canonical form. -/
  memoryCanonical : s.mem.wf = true
  /-- Bytes exist only where the platform has memory (R28, R43). -/
  memoryExists : ∀ c ∈ s.mem, memValidAt s.cfg c.1 = true
  /-- The hard-wired register holds zero (R21). -/
  zeroRegister : s.cfg.r0Zero = true → s.regs[0] = 0
  /-- BD is 0: there are no delay slots (R32). -/
  noDelaySlot : s.cause.bd = 0

/-! ## Frames -/

/-- Every byte of memory reads as before. -/
def SameMemory (s t : State) : Prop := ∀ a : Nat, t.mem.readByte a = s.mem.readByte a

/-- Every byte reads as before except the `n` bytes from `a` up. -/
def SameMemoryExcept (s t : State) (a : Word) (n : Nat) : Prop :=
  ∀ b : Nat, (∀ k < n, b ≠ byteAddress a k) → t.mem.readByte b = s.mem.readByte b

/-- Status, Cause, EPC and BadVAddr are as before. -/
def SameControl (s t : State) : Prop :=
  t.status = s.status ∧ t.cause = s.cause ∧ t.epc = s.epc ∧ t.badVAddr = s.badVAddr

/-- The parameters and the interrupt lines are as before. -/
def SameInputs (s t : State) : Prop := t.cfg = s.cfg ∧ t.irq = s.irq ∧ t.irqIn = s.irqIn

/-- Every general register reads as before. -/
def SameGpr (s t : State) : Prop := ∀ q : GReg, t.readReg q = s.readReg q

/-- Every floating point register reads as before. -/
def SameFpr (s t : State) : Prop := ∀ q : FReg, t.readFReg q = s.readFReg q

/-- HI and LO are as before. -/
def SameHiLo (s t : State) : Prop := t.hi = s.hi ∧ t.lo = s.lo

/-- `x[r] <- v; pc <- target`, and nothing else: the hard-wired register discards the value (R20, R21). -/
structure WroteGpr (s t : State) (r : GReg) (v target : Word) : Prop where
  value : t.readReg r = if s.cfg.r0Zero = true ∧ r = 0 then 0 else v
  others : ∀ q : GReg, q ≠ r → t.readReg q = s.readReg q
  pc : t.pc = target
  hiLo : SameHiLo s t
  floats : SameFpr s t
  memory : SameMemory s t
  control : SameControl s t
  inputs : SameInputs s t

/-- `f[r] <- v; pc <- pc + 4`, and nothing else (R26). -/
structure WroteFpr (s t : State) (r : FReg) (v : Word) : Prop where
  value : t.readFReg r = v
  others : ∀ q : FReg, q ≠ r → t.readFReg q = s.readFReg q
  pc : t.pc = s.pc + 4
  general : SameGpr s t
  hiLo : SameHiLo s t
  memory : SameMemory s t
  control : SameControl s t
  inputs : SameInputs s t

/-- `HI <- hi; LO <- lo; pc <- pc + 4`, and nothing else (R25). -/
structure WroteHiLo (s t : State) (hi lo : Word) : Prop where
  hi : t.hi = hi
  lo : t.lo = lo
  pc : t.pc = s.pc + 4
  general : SameGpr s t
  floats : SameFpr s t
  memory : SameMemory s t
  control : SameControl s t
  inputs : SameInputs s t

/-- `pc <- target`, and nothing else. -/
structure Jumped (s t : State) (target : Word) : Prop where
  pc : t.pc = target
  general : SameGpr s t
  hiLo : SameHiLo s t
  floats : SameFpr s t
  memory : SameMemory s t
  control : SameControl s t
  inputs : SameInputs s t

/-- The `n` bytes from `a` up are `byte 0, byte 1, ...`, every other byte of memory reads as before; `pc <- pc + 4`, and
nothing else (R45). -/
structure WroteBytes (s t : State) (a : Word) (n : Nat) (byte : Nat → Byte) : Prop where
  stored : ∀ k < n, t.mem.readByte (byteAddress a k) = some (byte k)
  others : SameMemoryExcept s t a n
  pc : t.pc = s.pc + 4
  general : SameGpr s t
  hiLo : SameHiLo s t
  floats : SameFpr s t
  control : SameControl s t
  inputs : SameInputs s t

/-- `pc <- pc + 4`, and nothing else but Status, Cause, EPC and BadVAddr may have changed. -/
structure WroteControl (s t : State) : Prop where
  pc : t.pc = s.pc + 4
  general : SameGpr s t
  hiLo : SameHiLo s t
  floats : SameFpr s t
  memory : SameMemory s t
  inputs : SameInputs s t

/-- Trap entry of R210 at the instruction whose address is `s.pc`, with the code of R200, and nothing else. CE after an
exception other than CoprocessorUnusable is a draw (U18): nothing is said of it. -/
structure Trapped (s t : State) (e : Exception) : Prop where
  epc : t.epc = s.pc
  excCode : t.cause.excCode.toNat =
    match e with
    | .interrupt => 0
    | .addressErrorLoad _ => 4
    | .addressErrorStore _ => 5
    | .syscall => 8
    | .breakpoint => 9
    | .reservedInstruction => 10
    | .coprocessorUnusable _ => 11
    | .overflow => 12
  noDelaySlot : t.cause.bd = 0
  unit : ∀ n : BitVec 2, e = .coprocessorUnusable n → t.cause.ce = n
  requests : t.cause.ip = s.cause.ip
  badAddress : t.badVAddr =
    match e with
    | .addressErrorLoad bad | .addressErrorStore bad => bad
    | .interrupt | .syscall | .breakpoint | .reservedInstruction | .coprocessorUnusable _ | .overflow => s.badVAddr
  current : t.status.getLsbD 0 = false ∧ t.status.getLsbD 1 = false
  pushed : ∀ k, 2 ≤ k → k < 6 → t.status.getLsbD k = s.status.getLsbD (k - 2)
  otherStatus : ∀ k, 6 ≤ k → t.status.getLsbD k = s.status.getLsbD k
  pc : t.pc = s.cfg.exceptionHandler
  general : SameGpr s t
  hiLo : SameHiLo s t
  floats : SameFpr s t
  memory : SameMemory s t
  inputs : SameInputs s t

/-- The general register an instruction writes (R20, R22); every other instruction writes none. -/
def gprWritten (i : Instr) : Option GReg :=
  match i with
  | .lw rt _ _ | .lb rt _ _ | .lbu rt _ _ => some rt
  | .add rd _ _ | .sub rd _ _ | .addu rd _ _ | .subu rd _ _ | .and rd _ _ | .nor rd _ _ | .or rd _ _
  | .xor rd _ _ => some rd
  | .addi rt _ _ | .addiu rt _ _ | .andi rt _ _ | .lui rt _ | .ori rt _ _ | .xori rt _ _ => some rt
  | .mfhi rd | .mflo rd => some rd
  | .sll rd _ _ | .srl rd _ _ | .sra rd _ _ | .sllv rd _ _ | .srlv rd _ _ | .srav rd _ _ => some rd
  | .slt rd _ _ => some rd
  | .slti rt _ _ => some rt
  | .jal _ => some 31
  | .jalr rd _ => some rd
  | .mfc0 rt _ | .mfc1 rt _ => some rt
  | .sw .. | .sb .. | .mult .. | .div .. | .multu .. | .divu .. | .mthi .. | .mtlo .. | .lwc1 .. | .swc1 .. | .addS ..
  | .subS .. | .mulS .. | .divS .. | .cvtSW .. | .cvtWS .. | .bltz .. | .bgez .. | .blez .. | .bgtz .. | .beq ..
  | .bne .. | .j .. | .jr .. | .syscall | .brk .. | .rfe | .mtc0 .. | .mtc1 .. => none

/-- The floating point register an instruction writes (R26, R160 to R167, R196). -/
def fprWritten (i : Instr) : Option FReg :=
  match i with
  | .lwc1 ft _ _ => some ft
  | .addS fd _ _ | .subS fd _ _ | .mulS fd _ _ | .divS fd _ _ => some fd
  | .cvtSW fd _ | .cvtWS fd _ => some fd
  | .mtc1 _ fd => some fd
  | .lw .. | .lb .. | .lbu .. | .sw .. | .sb .. | .add .. | .sub .. | .mult .. | .div .. | .addu .. | .subu ..
  | .multu .. | .divu .. | .and .. | .nor .. | .or .. | .xor .. | .addi .. | .addiu .. | .andi .. | .lui .. | .ori ..
  | .xori .. | .mfhi .. | .mthi .. | .mflo .. | .mtlo .. | .sll .. | .srl .. | .sra .. | .sllv .. | .srlv .. | .srav ..
  | .swc1 .. | .bltz .. | .bgez .. | .blez .. | .bgtz .. | .beq .. | .bne .. | .slt .. | .slti .. | .j .. | .jr ..
  | .jal .. | .jalr .. | .syscall | .brk .. | .rfe | .mfc0 .. | .mtc0 .. | .mfc1 .. => none

/-- The instruction writes HI (R25). -/
def writesHi (i : Instr) : Bool :=
  match i with
  | .mult .. | .multu .. | .div .. | .divu .. | .mthi .. => true
  | .lw .. | .lb .. | .lbu .. | .sw .. | .sb .. | .add .. | .sub .. | .addu .. | .subu .. | .and .. | .nor .. | .or ..
  | .xor .. | .addi .. | .addiu .. | .andi .. | .lui .. | .ori .. | .xori .. | .mfhi .. | .mflo .. | .mtlo .. | .sll ..
  | .srl .. | .sra .. | .sllv .. | .srlv .. | .srav .. | .lwc1 .. | .swc1 .. | .addS .. | .subS .. | .mulS ..
  | .divS .. | .cvtSW .. | .cvtWS .. | .bltz .. | .bgez .. | .blez .. | .bgtz .. | .beq .. | .bne .. | .slt ..
  | .slti .. | .j .. | .jr .. | .jal .. | .jalr .. | .syscall | .brk .. | .rfe | .mfc0 .. | .mtc0 .. | .mfc1 ..
  | .mtc1 .. => false

/-- The instruction writes LO (R25). -/
def writesLo (i : Instr) : Bool :=
  match i with
  | .mult .. | .multu .. | .div .. | .divu .. | .mtlo .. => true
  | .lw .. | .lb .. | .lbu .. | .sw .. | .sb .. | .add .. | .sub .. | .addu .. | .subu .. | .and .. | .nor .. | .or ..
  | .xor .. | .addi .. | .addiu .. | .andi .. | .lui .. | .ori .. | .xori .. | .mfhi .. | .mflo .. | .mthi .. | .sll ..
  | .srl .. | .sra .. | .sllv .. | .srlv .. | .srav .. | .lwc1 .. | .swc1 .. | .addS .. | .subS .. | .mulS ..
  | .divS .. | .cvtSW .. | .cvtWS .. | .bltz .. | .bgez .. | .blez .. | .bgtz .. | .beq .. | .bne .. | .slt ..
  | .slti .. | .j .. | .jr .. | .jal .. | .jalr .. | .syscall | .brk .. | .rfe | .mfc0 .. | .mtc0 .. | .mfc1 ..
  | .mtc1 .. => false

/-- The address an instruction stores to, by the function its meaning uses, and the number of bytes (R40, R46). -/
def storedRange (i : Instr) (s : State) : Option (Word × Nat) :=
  match i with
  | .sw _ rb imm => some (s.ea rb imm, 4)
  | .sb _ rb imm => some (s.ea rb imm, 1)
  | .swc1 _ rb imm => some (s.ea rb imm, 4)
  | .lw .. | .lb .. | .lbu .. | .add .. | .sub .. | .mult .. | .div .. | .addu .. | .subu .. | .multu .. | .divu ..
  | .and .. | .nor .. | .or .. | .xor .. | .addi .. | .addiu .. | .andi .. | .lui .. | .ori .. | .xori .. | .mfhi ..
  | .mthi .. | .mflo .. | .mtlo .. | .sll .. | .srl .. | .sra .. | .sllv .. | .srlv .. | .srav .. | .lwc1 .. | .addS ..
  | .subS .. | .mulS .. | .divS .. | .cvtSW .. | .cvtWS .. | .bltz .. | .bgez .. | .blez .. | .bgtz .. | .beq ..
  | .bne .. | .slt .. | .slti .. | .j .. | .jr .. | .jal .. | .jalr .. | .syscall | .brk .. | .rfe | .mfc0 ..
  | .mtc0 .. | .mfc1 .. | .mtc1 .. => none

/-! ## Exceptions of an instruction (R202) -/

/-- The instruction can raise the exception of its own, in the state `s`. -/
def mayRaise (i : Instr) (s : State) (e : Exception) : Prop :=
  match i with
  | .lw _ rb imm | .lb _ rb imm | .lbu _ rb imm => e = .addressErrorLoad (s.ea rb imm)
  | .sw _ rb imm | .sb _ rb imm => e = .addressErrorStore (s.ea rb imm)
  | .lwc1 _ rb imm => e = .coprocessorUnusable 1 ∨ e = .addressErrorLoad (s.ea rb imm)
  | .swc1 _ rb imm => e = .coprocessorUnusable 1 ∨ e = .addressErrorStore (s.ea rb imm)
  | .add .. | .addi .. | .sub .. => e = .overflow
  | .addS .. | .subS .. | .mulS .. | .divS .. | .cvtSW .. | .cvtWS .. | .mfc1 .. | .mtc1 .. =>
    e = .coprocessorUnusable 1
  | .mfc0 .. | .mtc0 .. | .rfe => e = .coprocessorUnusable 0
  | .syscall => e = .syscall
  | .brk .. => e = .breakpoint
  | .addu .. | .subu .. | .addiu .. | .mult .. | .multu .. | .div .. | .divu .. | .and .. | .or .. | .xor .. | .nor ..
  | .andi .. | .ori .. | .xori .. | .lui .. | .sll .. | .srl .. | .sra .. | .sllv .. | .srlv .. | .srav .. | .mfhi ..
  | .mthi .. | .mflo .. | .mtlo .. | .slt .. | .slti .. | .bltz .. | .bgez .. | .blez .. | .bgtz .. | .beq .. | .bne ..
  | .j .. | .jr .. | .jal .. | .jalr .. => False

/-! ## Accesses and words, said in numbers -/

/-- The checks of R45 pass: a multiple of 4 for a word, allowed by ADDR_OK, in MEM_VALID. -/
abbrev Granted (s : State) (width : Width) (kind : AccessKind) (a : Word) : Prop :=
  (width = .word → a.toNat % 4 = 0) ∧ addrOk s.cfg s.mode a kind = true ∧ memValidAt s.cfg a.toNat = true

/-- The checks of R45 raise an address error: a word address that is no multiple of 4, or one ADDR_OK forbids. -/
abbrev Denied (s : State) (width : Width) (kind : AccessKind) (a : Word) : Prop :=
  (width = .word ∧ a.toNat % 4 ≠ 0) ∨ addrOk s.cfg s.mode a kind = false

/-- The address is aligned and allowed, and holds no memory (R43). -/
abbrev Missing (s : State) (width : Width) (kind : AccessKind) (a : Word) : Prop :=
  (width = .word → a.toNat % 4 = 0) ∧ addrOk s.cfg s.mode a kind = true ∧ memValidAt s.cfg a.toNat = false

/-- The number a word is whose bytes, from the lowest address up, are `b0 b1 b2 b3` (R44). -/
def wordValue (o : ByteOrder) (b0 b1 b2 b3 : Byte) : Nat :=
  match o with
  | .big => b0.toNat * 2 ^ 24 + b1.toNat * 2 ^ 16 + b2.toNat * 2 ^ 8 + b3.toNat
  | .little => b3.toNat * 2 ^ 24 + b2.toNat * 2 ^ 16 + b1.toNat * 2 ^ 8 + b0.toNat

/-- The place of the byte `k` locations above a word's address: its weight in the word is `2 ^ (8 * lane o k)` (R44). -/
def lane (o : ByteOrder) (k : Nat) : Nat :=
  match o with
  | .big => 3 - k
  | .little => k

/-- An interrupt is due at the next step: IEc is set, and one of the eight requests, the six lines as they will be
sampled above the two software requests, is let through by IM (R203 step 2, R220, R221). -/
abbrev InterruptDue (s : State) : Prop :=
  s.status.getLsbD 0 = true ∧ (s.irqIn.headD s.irq ++ s.cause.ip) &&& s.status.extractLsb' 8 8 ≠ 0

/-- The four bytes at `a`, from the lowest address up, have been written and are `b0 b1 b2 b3`. -/
abbrev HoldsBytes (s : State) (a : Word) (b0 b1 b2 b3 : Byte) : Prop :=
  s.mem.readByte (byteAddress a 0) = some b0 ∧ s.mem.readByte (byteAddress a 1) = some b1 ∧
    s.mem.readByte (byteAddress a 2) = some b2 ∧ s.mem.readByte (byteAddress a 3) = some b3

/-- Co-processor 0 is usable: kernel mode, or CU0 (R206). -/
abbrev Cp0Usable (s : State) : Prop := s.status.getLsbD 1 = false ∨ s.status.getLsbD 28 = true

/-- Co-processor 1 is usable: CU1 (R206). -/
abbrev Cp1Usable (s : State) : Prop := s.status.getLsbD 29 = true

/-- The bits of Status that have a function (R31). -/
abbrev StatusFunctionBit (k : Nat) : Prop := k < 6 ∨ (8 ≤ k ∧ k < 16) ∨ k = 28 ∨ k = 29

/-- A finite pattern of the single-precision format: exponent field not 255 (R168). -/
abbrev FpFinite (a : Word) : Prop := fpExponent a ≠ 255

/-- The sum is invalid: a NaN operand, or infinities of different signs (R169). -/
abbrev InvalidAdd (a b : Word) : Prop :=
  fpIsNaN a = true ∨ fpIsNaN b = true ∨ (fpIsInf a = true ∧ fpIsInf b = true ∧ fpSign a ≠ fpSign b)

/-- The difference is invalid: a NaN operand, or infinities of one sign (R169). -/
abbrev InvalidSub (a b : Word) : Prop :=
  fpIsNaN a = true ∨ fpIsNaN b = true ∨ (fpIsInf a = true ∧ fpIsInf b = true ∧ fpSign a = fpSign b)

/-- The product is invalid: a NaN operand, or a zero and an infinity (R169). -/
abbrev InvalidMul (a b : Word) : Prop :=
  fpIsNaN a = true ∨ fpIsNaN b = true ∨ (fpIsZero a = true ∧ fpIsInf b = true) ∨ (fpIsInf a = true ∧ fpIsZero b = true)

/-- The quotient is invalid: a NaN operand, two zeros, or two infinities (R169). -/
abbrev InvalidDiv (a b : Word) : Prop :=
  fpIsNaN a = true ∨ fpIsNaN b = true ∨ (fpIsZero a = true ∧ fpIsZero b = true) ∨ (fpIsInf a = true ∧ fpIsInf b = true)

/-- `cvt.w.s` is invalid: a NaN, an infinity, or a rounded integer outside `-2^31 .. 2^31-1` (R169). -/
abbrev InvalidCvtWS (a : Word) : Prop :=
  fpIsNaN a = true ∨ fpIsInf a = true ∨ fpNearestInt a < -2 ^ 31 ∨ 2 ^ 31 ≤ fpNearestInt a

/-- The result of an invalid operation: a NaN, and the draw itself when the draw is one, so that every NaN pattern is
possible (R169, U8). -/
abbrev NaNOfDraw (v draw : Word) : Prop := fpIsNaN v = true ∧ (fpIsNaN draw = true → v = draw)

/-- What an operation on `a`, `b` answers for a draw is a NaN exactly when the operation is invalid; then every NaN
pattern is the answer of some draw, and otherwise the draw does not matter (R169, U8). -/
structure DrawsItsNaN (op : Word → Word → Word → Word) (invalid : Prop) (a b : Word) : Prop where
  isNaN : ∀ d, fpIsNaN (op a b d) = true ↔ invalid
  anyNaN : invalid → ∀ d, fpIsNaN d = true → op a b d = d
  noDraw : ¬ invalid → ∀ d e, op a b d = op a b e

/-- The word is `± num / den` units of `2^-149` rounded to nearest, ties to even (R168): no finite pattern lies nearer,
of two equally near ones the word is the even one, and it is the infinity exactly from half a last place above the
largest finite pattern on, that is from `(2^25 - 1) * 2^252` units. -/
structure RoundedTo (w : Word) (neg : Bool) (num den : Nat) : Prop where
  sign : fpSign w = neg
  number : fpIsNaN w = false
  overflow : fpIsInf w = true ↔ den * ((2 ^ 25 - 1) * 2 ^ 252) ≤ num
  nearest : fpIsInf w = false → ∀ v : Word, FpFinite v →
    ((num : Int) - fpMagUnits w * den).natAbs ≤ ((num : Int) - fpMagUnits v * den).natAbs
  even : fpIsInf w = false → ∀ v : Word, FpFinite v → fpMagUnits v ≠ fpMagUnits w →
    ((num : Int) - fpMagUnits w * den).natAbs = ((num : Int) - fpMagUnits v * den).natAbs → w.getLsbD 0 = false

/-! ## Safe runs -/

/-- A run is safe for `n` steps when it reaches no fault and no refusal: every access is to memory that exists (R43)
and no operand form without a meaning is executed (R256). -/
def SafeFor (n : Nat) (s : State) : Prop := ∃ t, Host.Core.run core n s = .next t

end Sys2Proof.Machine
end

