-- ==== Sys2Proof/Certificates/Slice0/Obligations.lean ====
section
/-! DEFINITION. Sys2Proof/Certificates/Slice0/Obligations.lean: the statements about the machine, in the order of
OBLIGATIONS.json. "Derived" statements rest on rules that the spec marks as its own decisions (D<n>) or on choices of the
model (log <n>); their docstrings name them. -/

open Sys2Proof Sys2Proof.Machine

/-! ## Encoding (spec/30_encoding.md) -/

/-- Eleven instruction words that the spec writes out, at least one of each family, decode to the instructions they stand
for: `addi`, `mthi` and `bgez` are those of the Example lines of R130, R141 and R171, the other eight stand in
spec/95_test_vectors.md. The first also decodes from its four bytes, in both byte orders (R44, R61, R70). -/
def Obligations.SpecWordsDecode : Prop :=
  decodeWord 0x8C850008#32 = some (.lw 5 4 8) ∧
  decodeWord 0x00221822#32 = some (.sub 3 1 2) ∧
  decodeWord 0x2022FFFD#32 = some (.addi 2 1 0xFFFD) ∧
  decodeWord 0x00800011#32 = some (.mthi 4) ∧
  decodeWord 0x00021903#32 = some (.sra 3 2 4) ∧
  decodeWord 0x00221807#32 = some (.srav 3 2 1) ∧
  decodeWord 0x46041181#32 = some (.subS 6 2 4) ∧
  decodeWord 0x0421FFFE#32 = some (.bgez 1 0xFFFE) ∧
  decodeWord 0x0020F809#32 = some (.jalr 31 1) ∧
  decodeWord 0x40856000#32 = some (.mtc0 5 12) ∧
  decodeWord 0x44053000#32 = some (.mfc1 5 6) ∧
  decodeBytes .big [0x8C#8, 0x85#8, 0x00#8, 0x08#8] = .instr (.lw 5 4 8) [] ∧
  decodeBytes .little [0x08#8, 0x00#8, 0x85#8, 0x8C#8] = .instr (.lw 5 4 8) []

/-- R70: the instruction set is exactly the 60 printed rows; a word is the instruction of a row if and only if
`(w AND mask) = match`; no word satisfies two rows; `match` and `mask` are read off the printed pattern; a word of no row
is not an instruction. -/
def Obligations.DecoderFollowsThePrintedTable : Prop :=
  printedRows.length = 60 ∧
  (printedRows.map (fun r => r.mnemonic)).Nodup ∧
  (∀ i : Instr, ∃ r ∈ printedRows, r.mnemonic = i.mnemonic) ∧
  (∀ r ∈ printedRows, r.pat = wordOfPattern (fun c => c = '1') r.pattern ∧
    r.mask = wordOfPattern (fun c => c = '0' || c = '1') r.pattern) ∧
  (∀ (w : Word), ∀ r ∈ printedRows,
    (w &&& r.mask = r.pat ↔ ∃ i, decodeWord w = some i ∧ i.mnemonic = r.mnemonic)) ∧
  (∀ (w : Word), ∀ r ∈ printedRows, ∀ q ∈ printedRows, w &&& r.mask = r.pat → w &&& q.mask = q.pat → r = q) ∧
  (∀ w : Word, decodeWord w = none ↔ ∀ r ∈ printedRows, w &&& r.mask ≠ r.pat)

/-- Decode and encode agree: decoding the word of any instruction, with every operand at every value, gives the
instruction, and so does decoding its four bytes in either byte order, which leaves the bytes after it alone
(R44, R60, R61, R62, R70). -/
def Obligations.DecodeEncodeRoundTrip : Prop :=
  ∀ i : Instr, decodeWord (encode i) = some i ∧
    ∀ (o : ByteOrder) (rest : List Byte), decodeBytes o (encodeBytes o i ++ rest) = .instr i rest

/-- The other direction: a word that decodes is the word of its instruction, so the decoder drops no bit of it and two
instructions never share a word; a reserved word is the word of no instruction (R70, R76). -/
def Obligations.EncodeDecodeRoundTrip : Prop :=
  (∀ (w : Word) (i : Instr), decodeWord w = some i → encode i = w) ∧
  (∀ i j : Instr, encode i = encode j → i = j) ∧
  (∀ w : Word, decodeWord w = none ↔ ∀ i : Instr, encode i ≠ w)

/-- Where each operand stands in the word, for one row of every field layout (R61), among them the cases R63 warns of:
`d` at 15..11 or 10..6, `s` at 25..21 or 15..11, `F_d` of `mfc1`, `mtc1` at 15..11, `i` at 15..0, 25..0 (`j`, `jal`) or
10..6 (`sll`, `srl`, `sra`). -/
def Obligations.FieldsReadTheirBits : Prop :=
  ∀ w : Word,
    (w &&& 0xFC000000#32 = 0x8C000000#32 →
      decodeWord w = some (.lw (w.extractLsb' 16 5) (w.extractLsb' 21 5) (w.extractLsb' 0 16))) ∧
    (w &&& 0xFC000000#32 = 0xE4000000#32 →
      decodeWord w = some (.swc1 (w.extractLsb' 16 5) (w.extractLsb' 21 5) (w.extractLsb' 0 16))) ∧
    (w &&& 0xFC0007FF#32 = 0x00000007#32 →
      decodeWord w = some (.srav (w.extractLsb' 11 5) (w.extractLsb' 16 5) (w.extractLsb' 21 5))) ∧
    (w &&& 0xFFE0003F#32 = 0x46000003#32 →
      decodeWord w = some (.divS (w.extractLsb' 6 5) (w.extractLsb' 11 5) (w.extractLsb' 16 5))) ∧
    (w &&& 0xFFFF003F#32 = 0x46800020#32 →
      decodeWord w = some (.cvtSW (w.extractLsb' 6 5) (w.extractLsb' 11 5))) ∧
    (w &&& 0xFC1F0000#32 = 0x04010000#32 →
      decodeWord w = some (.bgez (w.extractLsb' 21 5) (w.extractLsb' 0 16))) ∧
    (w &&& 0xFC000000#32 = 0x10000000#32 →
      decodeWord w = some (.beq (w.extractLsb' 21 5) (w.extractLsb' 16 5) (w.extractLsb' 0 16))) ∧
    (w &&& 0xFC1F07FF#32 = 0x00000009#32 →
      decodeWord w = some (.jalr (w.extractLsb' 11 5) (w.extractLsb' 21 5))) ∧
    (w &&& 0xFC00083F#32 = 0x0000000D#32 →
      decodeWord w = some (.brk (w.extractLsb' 12 14) (w.extractLsb' 6 5))) ∧
    (w &&& 0xFC000000#32 = 0x08000000#32 → decodeWord w = some (.j (w.extractLsb' 0 26))) ∧
    (w &&& 0xFC000000#32 = 0x0C000000#32 → decodeWord w = some (.jal (w.extractLsb' 0 26))) ∧
    (w &&& 0xFFE0003F#32 = 0x00000000#32 →
      decodeWord w = some (.sll (w.extractLsb' 11 5) (w.extractLsb' 16 5) (w.extractLsb' 6 5))) ∧
    (w &&& 0xFFE0003F#32 = 0x00000002#32 →
      decodeWord w = some (.srl (w.extractLsb' 11 5) (w.extractLsb' 16 5) (w.extractLsb' 6 5))) ∧
    (w &&& 0xFFE0003F#32 = 0x00000003#32 →
      decodeWord w = some (.sra (w.extractLsb' 11 5) (w.extractLsb' 16 5) (w.extractLsb' 6 5))) ∧
    (w &&& 0xFFE007FF#32 = 0x40800000#32 →
      decodeWord w = some (.mtc0 (w.extractLsb' 16 5) (w.extractLsb' 11 5))) ∧
    (w &&& 0xFFE007FF#32 = 0x44000000#32 →
      decodeWord w = some (.mfc1 (w.extractLsb' 16 5) (w.extractLsb' 11 5))) ∧
    (w &&& 0xFFE007FF#32 = 0x44800000#32 →
      decodeWord w = some (.mtc1 (w.extractLsb' 16 5) (w.extractLsb' 11 5)))

/-! ## The step (spec/60_exceptions.md R203, R214) -/

/-- Derived (decisions D6, D12, D14): when no interrupt is due and the word at the program counter may be fetched and
decodes to an instruction, the step is `exec` of it, on the state whose lines have been sampled. The two counters
`irqIn` and `draws` are the model's own (log 7, log 9). -/
def Obligations.StepRunsDecodedInstruction : Prop :=
  ∀ (s : State) (i : Instr) (b0 b1 b2 b3 : Byte), ¬ InterruptDue s → Granted s .word .fetch s.pc →
    HoldsBytes s s.pc b0 b1 b2 b3 → decodeBytes s.cfg.byteOrder [b0, b1, b2, b3] = .instr i [] →
    step s = exec i { s with irq := s.irqIn.headD s.irq, irqIn := s.irqIn.tail, draws := s.draws + 1 }

/-- Derived (decisions D12, D14, D27): an interrupt that is due is taken at this step, before the fetch, whatever stands
at the program counter; EPC is the address of the instruction that would have executed. The moment is the model's (the
spec's default, U19). -/
def Obligations.StepTakesDueInterrupt : Prop :=
  ∀ s : State, InterruptDue s → ∃ t, step s = .next t ∧ Trapped s.beginStep t .interrupt

/-- Derived (decisions D4, D12, D16, D17, D27): with no interrupt due, a bad program counter raises AddressErrorLoad with
itself as the bad address; an aligned and allowed one outside MEM_VALID is stuck; a word that decodes to nothing raises
ReservedInstruction. -/
def Obligations.FetchOutcomesWithoutAnInstruction : Prop :=
  ∀ s : State, ¬ InterruptDue s →
    (Denied s .word .fetch s.pc → ∃ t, step s = .next t ∧ Trapped s.beginStep t (.addressErrorLoad s.pc)) ∧
    (Missing s .word .fetch s.pc → step s = .fault (.outsideMemValid .fetch s.pc)) ∧
    (∀ b0 b1 b2 b3 : Byte, Granted s .word .fetch s.pc → HoldsBytes s s.pc b0 b1 b2 b3 →
      decodeWord (wordOfBytes s.cfg.byteOrder b0 b1 b2 b3) = none →
      ∃ t, step s = .next t ∧ Trapped s.beginStep t .reservedInstruction)

/-- Derived (model's input list, log 9; draws, log 7): a step keeps the parameters, consumes one supplied level of the
interrupt lines (or keeps the level when none is supplied), and the number of the next draw rises (R39, R221). -/
def Obligations.StepKeepsParametersAndConsumesInputs : Prop :=
  ∀ s t : State, step s = .next t →
    t.cfg = s.cfg ∧ t.irq = s.irqIn.headD s.irq ∧ t.irqIn = s.irqIn.tail ∧ s.draws < t.draws

/-! ## Taking an exception and returning (spec/60_exceptions.md R200, R210, R211) -/

/-- Derived (decisions D10, D12, D24): what trap entry records, and that it changes nothing else; after it the processor is
in kernel mode with interrupts disabled, so that no interrupt is due before software enables it. -/
def Obligations.TrapEntryRecordsTheException : Prop :=
  ∀ (e : Exception) (s : State), Trapped s (trapEntry e s) e ∧ (trapEntry e s).mode = .kernel ∧
    ¬ InterruptDue (trapEntry e s)

/-- Derived (decision D12): the Status stack is three deep. `rfe` at the handler's address, right after any trap entry,
brings back mode and interrupt enable, current and previous, and every bit of Status above the stack; it keeps EPC,
Cause and BadVAddr and does not jump. -/
def Obligations.TrapThenRfeRestoresTheMode : Prop :=
  ∀ (e : Exception) (s : State), ∃ t, exec .rfe (trapEntry e s) = .next t ∧
    t.mode = s.mode ∧ t.interruptEnable = s.interruptEnable ∧
    (∀ k, k < 4 ∨ 6 ≤ k → t.status.getLsbD k = s.status.getLsbD k) ∧
    t.epc = s.pc ∧ t.cause = (trapEntry e s).cause ∧ t.badVAddr = (trapEntry e s).badVAddr ∧
    t.pc = s.cfg.exceptionHandler + 4

/-! ## Frames -/

/-- Derived (decisions D11, D12): Status, Cause, EPC and BadVAddr change only when the instruction raises one of the
exceptions R202 lists for it, and then as trap entry says; in `rfe`, which touches Status bits 3..0 alone; and in `mtc0`,
which writes the one register it names (of Cause the bits 9..8 alone). -/
def Obligations.ControlStateFrame : Prop :=
  ∀ (i : Instr) (s t : State), exec i s = .next t →
    (∃ e, mayRaise i s e ∧ Trapped s t e) ∨
    SameControl s t ∨
    (i = .rfe ∧ t.cause = s.cause ∧ t.epc = s.epc ∧ t.badVAddr = s.badVAddr ∧
      ∀ k, 4 ≤ k → t.status.getLsbD k = s.status.getLsbD k) ∨
    (∃ rt, i = .mtc0 rt 12 ∧ t.cause = s.cause ∧ t.epc = s.epc ∧ t.badVAddr = s.badVAddr) ∨
    (∃ rt, i = .mtc0 rt 13 ∧ t.status = s.status ∧ t.epc = s.epc ∧ t.badVAddr = s.badVAddr ∧
      t.cause.excCode = s.cause.excCode ∧ t.cause.ce = s.cause.ce ∧ t.cause.bd = s.cause.bd)

/-- Every general register but the one that R20 and R22 say the instruction writes reads as before, when it completes and
when it traps (R20, R22, R201). -/
def Obligations.GeneralRegisterFrame : Prop :=
  ∀ (i : Instr) (s t : State), exec i s = .next t → ∀ r : GReg, gprWritten i ≠ some r → t.readReg r = s.readReg r

/-- Every floating point register but the one the instruction names as destination reads as before; HI and LO change only
in the instructions that R25 lists (R25, R26). -/
def Obligations.FloatAndHiLoFrame : Prop :=
  ∀ (i : Instr) (s t : State), exec i s = .next t →
    (∀ r : FReg, fprWritten i ≠ some r → t.readFReg r = s.readFReg r) ∧
    (writesHi i = false → t.hi = s.hi) ∧ (writesLo i = false → t.lo = s.lo)

/-- Every byte of memory reads as before but those from the effective address up that `sw`, `swc1` (four bytes) and `sb`
(one byte) store to; a form that stores nothing changes no byte (R40, R45, R46). -/
def Obligations.MemoryFrame : Prop :=
  ∀ (i : Instr) (s t : State), exec i s = .next t →
    (storedRange i s = none → SameMemory s t) ∧
    (∀ a n, storedRange i s = some (a, n) → SameMemoryExcept s t a n)

/-- The program counter stays a multiple of 4: only `jr` and `jalr` can make it otherwise, the exception handler's
address being one (R24, R176 (e), R182, R184, R245). -/
def Obligations.OnlyRegisterJumpsMisalignPc : Prop :=
  ∀ (i : Instr) (s t : State), exec i s = .next t → s.pc.toNat % 4 = 0 → s.cfg.exceptionHandler.toNat % 4 = 0 →
    t.pc.toNat % 4 = 0 ∨ (∃ rs, i = .jr rs ∧ t.pc = s.readReg rs) ∨ (∃ rd rs, i = .jalr rd rs ∧ t.pc = s.readReg rs)

/-! ## Register arithmetic and logic (spec/41_arithmetic_logical.md) -/

/-- R114, R115: `addu` and `subu`, their encodings and their results: the sum and the difference modulo `2^32`, overflow
ignored; they always complete. -/
def Obligations.AdduSubuResult : Prop :=
  (∀ w : Word, w &&& 0xFC0007FF#32 = 0x00000021#32 →
    decodeWord w = some (.addu (w.extractLsb' 11 5) (w.extractLsb' 21 5) (w.extractLsb' 16 5))) ∧
  (∀ w : Word, w &&& 0xFC0007FF#32 = 0x00000023#32 →
    decodeWord w = some (.subu (w.extractLsb' 11 5) (w.extractLsb' 21 5) (w.extractLsb' 16 5))) ∧
  ∀ (s : State) (rd rs rt : GReg),
    (∃ t v, exec (.addu rd rs rt) s = .next t ∧ WroteGpr s t rd v (s.pc + 4) ∧
      v.toNat = ((s.readReg rs).toNat + (s.readReg rt).toNat) % 2 ^ 32) ∧
    (∃ t v, exec (.subu rd rs rt) s = .next t ∧ WroteGpr s t rd v (s.pc + 4) ∧
      (v.toNat : Int) = ((s.readReg rs).toNat - (s.readReg rt).toNat : Int) % 2 ^ 32)

/-- R118, R120, R121: `and`, `or`, `xor`, their encodings and, bit by bit, their results; they always complete. -/
def Obligations.AndOrXorResult : Prop :=
  (∀ w : Word, w &&& 0xFC0007FF#32 = 0x00000024#32 →
    decodeWord w = some (.and (w.extractLsb' 11 5) (w.extractLsb' 21 5) (w.extractLsb' 16 5))) ∧
  (∀ w : Word, w &&& 0xFC0007FF#32 = 0x00000025#32 →
    decodeWord w = some (.or (w.extractLsb' 11 5) (w.extractLsb' 21 5) (w.extractLsb' 16 5))) ∧
  (∀ w : Word, w &&& 0xFC0007FF#32 = 0x00000026#32 →
    decodeWord w = some (.xor (w.extractLsb' 11 5) (w.extractLsb' 21 5) (w.extractLsb' 16 5))) ∧
  ∀ (s : State) (rd rs rt : GReg),
    (∃ t v, exec (.and rd rs rt) s = .next t ∧ WroteGpr s t rd v (s.pc + 4) ∧
      ∀ k, v.getLsbD k = ((s.readReg rs).getLsbD k && (s.readReg rt).getLsbD k)) ∧
    (∃ t v, exec (.or rd rs rt) s = .next t ∧ WroteGpr s t rd v (s.pc + 4) ∧
      ∀ k, v.getLsbD k = ((s.readReg rs).getLsbD k || (s.readReg rt).getLsbD k)) ∧
    (∃ t v, exec (.xor rd rs rt) s = .next t ∧ WroteGpr s t rd v (s.pc + 4) ∧
      ∀ k, v.getLsbD k = ((s.readReg rs).getLsbD k != (s.readReg rt).getLsbD k))

/-- Derived (NOR as complement of OR is general knowledge, G21; the signed comparison of `slt`, `slti` is decision D9):
the results of `nor`, `slt`, `slti`; they always complete. -/
def Obligations.NorSltSltiResult : Prop :=
  ∀ (s : State) (rd rs rt : GReg) (imm : Imm16),
    (∃ t v, exec (.nor rd rs rt) s = .next t ∧ WroteGpr s t rd v (s.pc + 4) ∧
      ∀ k < 32, v.getLsbD k = (!(s.readReg rs).getLsbD k && !(s.readReg rt).getLsbD k)) ∧
    (∃ t v, exec (.slt rd rs rt) s = .next t ∧ WroteGpr s t rd v (s.pc + 4) ∧
      v.toNat = if (s.readReg rs).toInt < (s.readReg rt).toInt then 1 else 0) ∧
    (∃ t v, exec (.slti rd rs imm) s = .next t ∧ WroteGpr s t rd v (s.pc + 4) ∧
      v.toNat = if (s.readReg rs).toInt < imm.toInt then 1 else 0)

/-- Derived (that overflow traps is decision D7): `add`, `sub`, `addi` complete whenever the exact signed result fits 32
bits, and write it (R110, R111, R130). -/
def Obligations.AddSubAddiCompleteWhenInRange : Prop :=
  ∀ (s : State) (rd rs rt : GReg) (imm : Imm16),
    (-2 ^ 31 ≤ (s.readReg rs).toInt + (s.readReg rt).toInt ∧ (s.readReg rs).toInt + (s.readReg rt).toInt < 2 ^ 31 →
      ∃ t v, exec (.add rd rs rt) s = .next t ∧ WroteGpr s t rd v (s.pc + 4) ∧
        v.toInt = (s.readReg rs).toInt + (s.readReg rt).toInt) ∧
    (-2 ^ 31 ≤ (s.readReg rs).toInt - (s.readReg rt).toInt ∧ (s.readReg rs).toInt - (s.readReg rt).toInt < 2 ^ 31 →
      ∃ t v, exec (.sub rd rs rt) s = .next t ∧ WroteGpr s t rd v (s.pc + 4) ∧
        v.toInt = (s.readReg rs).toInt - (s.readReg rt).toInt) ∧
    (-2 ^ 31 ≤ (s.readReg rs).toInt + imm.toInt ∧ (s.readReg rs).toInt + imm.toInt < 2 ^ 31 →
      ∃ t v, exec (.addi rd rs imm) s = .next t ∧ WroteGpr s t rd v (s.pc + 4) ∧
        v.toInt = (s.readReg rs).toInt + imm.toInt)

/-- Derived (decision D7): with the bit condition that R110 and R111 give as equivalent, of the wrapped result `r` (the
operands have equal, for `sub` different, sign bits, and the sign bit of `r` differs from that of `x[s]`), `add`, `sub`,
`addi` raise Overflow and write no register, also when `d = 0`; without it they write `r`. -/
def Obligations.AddSubAddiTrapOnOverflow : Prop :=
  ∀ (s : State) (rd rs rt : GReg) (imm : Imm16),
    (if (s.readReg rs).msb = (s.readReg rt).msb ∧ (s.readReg rs + s.readReg rt).msb ≠ (s.readReg rs).msb then
      ∃ t, exec (.add rd rs rt) s = .next t ∧ Trapped s t .overflow
    else ∃ t, exec (.add rd rs rt) s = .next t ∧ WroteGpr s t rd (s.readReg rs + s.readReg rt) (s.pc + 4)) ∧
    (if (s.readReg rs).msb ≠ (s.readReg rt).msb ∧ (s.readReg rs - s.readReg rt).msb ≠ (s.readReg rs).msb then
      ∃ t, exec (.sub rd rs rt) s = .next t ∧ Trapped s t .overflow
    else ∃ t, exec (.sub rd rs rt) s = .next t ∧ WroteGpr s t rd (s.readReg rs - s.readReg rt) (s.pc + 4)) ∧
    (if (s.readReg rs).msb = imm.msb ∧ (s.readReg rs + imm.signExtend 32).msb ≠ (s.readReg rs).msb then
      ∃ t, exec (.addi rd rs imm) s = .next t ∧ Trapped s t .overflow
    else ∃ t, exec (.addi rd rs imm) s = .next t ∧ WroteGpr s t rd (s.readReg rs + imm.signExtend 32) (s.pc + 4))

/-- Derived (the signedness is decision D8): `mult` and `multu` leave in `HI ∥ LO` the exact 64-bit product, signed and
unsigned; they always complete (R112, R116). -/
def Obligations.MultiplyLeavesTheExactProduct : Prop :=
  ∀ (s : State) (rs rt : GReg),
    (∃ t hi lo, exec (.mult rs rt) s = .next t ∧ WroteHiLo s t hi lo ∧
      (hi ++ lo : BitVec 64).toInt = (s.readReg rs).toInt * (s.readReg rt).toInt) ∧
    (∃ t hi lo, exec (.multu rs rt) s = .next t ∧ WroteHiLo s t hi lo ∧
      (hi ++ lo : BitVec 64).toNat = (s.readReg rs).toNat * (s.readReg rt).toNat)

/-- Derived (decision D8; the rounding is the parameter SDIV, U23; that SDIV has a second setting, the flooring one that
program P3 of spec/95_test_vectors.md mentions, is the model's choice, log 5): for a divisor other than 0 and operands other than
`-2^31`, `-1`, `div` leaves a quotient in LO and a remainder in HI with `a = q * b + r` and `|r| < |b|`; the remainder has the
dividend's sign under the default, truncation (R113), and the divisor's under the model's flooring setting. -/
def Obligations.SignedDivideResult : Prop :=
  ∀ (s : State) (rs rt : GReg), (s.readReg rt).toInt ≠ 0 →
    ¬ ((s.readReg rs).toInt = -2 ^ 31 ∧ (s.readReg rt).toInt = -1) →
    ∃ t hi lo, exec (.div rs rt) s = .next t ∧ WroteHiLo s t hi lo ∧
      (s.readReg rs).toInt = lo.toInt * (s.readReg rt).toInt + hi.toInt ∧
      hi.toInt.natAbs < (s.readReg rt).toInt.natAbs ∧
      (s.cfg.divRounding = .truncate → hi.toInt ≠ 0 → (hi.toInt < 0 ↔ (s.readReg rs).toInt < 0)) ∧
      (s.cfg.divRounding = .floor → hi.toInt ≠ 0 → (hi.toInt < 0 ↔ (s.readReg rt).toInt < 0))

/-- Derived (the unsigned reading is decision D8): for a divisor other than 0, `divu` leaves the floor quotient in LO and
the remainder in HI (R117). -/
def Obligations.UnsignedDivideResult : Prop :=
  ∀ (s : State) (rs rt : GReg), (s.readReg rt).toNat ≠ 0 →
    ∃ t hi lo, exec (.divu rs rt) s = .next t ∧ WroteHiLo s t hi lo ∧
      (s.readReg rs).toNat = lo.toNat * (s.readReg rt).toNat + hi.toNat ∧ hi.toNat < (s.readReg rt).toNat

/-- Derived (decision D8, U1, U2; the form of a draw is the model's, log 7): a division by zero and `-2^31 div -1` raise
nothing and complete; HI and LO each receive a draw of its own, of which nothing is known (R113, R117). -/
def Obligations.DivideUnspecifiedLeavesDraws : Prop :=
  ∀ (s : State) (rs rt : GReg),
    ((s.readReg rt).toInt = 0 ∨ ((s.readReg rs).toInt = -2 ^ 31 ∧ (s.readReg rt).toInt = -1) →
      ∃ t, exec (.div rs rt) s = .next t ∧ t.draws = s.draws + 2 ∧
        WroteHiLo s t (Config.draw s.draws) (Config.draw (s.draws + 1))) ∧
    ((s.readReg rt).toNat = 0 →
      ∃ t, exec (.divu rs rt) s = .next t ∧ t.draws = s.draws + 2 ∧
        WroteHiLo s t (Config.draw s.draws) (Config.draw (s.draws + 1)))

/-! ## Immediates (spec/42_immediate.md) -/

/-- R131 to R135: `addiu`, `andi`, `lui`, `ori`, `xori`, their encodings and results: `addiu` sign-extends the immediate and
wraps, `andi` clears the high half, `lui` places the immediate in the high half, `ori` and `xori` let the high half of
`x[s]` through. They always complete. A word with the opcode of `lui` and bits 25..21 not zero is reserved. -/
def Obligations.ImmediateResult : Prop :=
  (∀ w : Word,
    (w &&& 0xFC000000#32 = 0x24000000#32 →
      decodeWord w = some (.addiu (w.extractLsb' 16 5) (w.extractLsb' 21 5) (w.extractLsb' 0 16))) ∧
    (w &&& 0xFC000000#32 = 0x30000000#32 →
      decodeWord w = some (.andi (w.extractLsb' 16 5) (w.extractLsb' 21 5) (w.extractLsb' 0 16))) ∧
    (w &&& 0xFFE00000#32 = 0x3C000000#32 → decodeWord w = some (.lui (w.extractLsb' 16 5) (w.extractLsb' 0 16))) ∧
    (w &&& 0xFC000000#32 = 0x3C000000#32 → w.extractLsb' 21 5 ≠ 0#5 → decodeWord w = none) ∧
    (w &&& 0xFC000000#32 = 0x34000000#32 →
      decodeWord w = some (.ori (w.extractLsb' 16 5) (w.extractLsb' 21 5) (w.extractLsb' 0 16))) ∧
    (w &&& 0xFC000000#32 = 0x38000000#32 →
      decodeWord w = some (.xori (w.extractLsb' 16 5) (w.extractLsb' 21 5) (w.extractLsb' 0 16)))) ∧
  ∀ (s : State) (rt rs : GReg) (imm : Imm16),
    (∃ t v, exec (.addiu rt rs imm) s = .next t ∧ WroteGpr s t rt v (s.pc + 4) ∧
      (v.toNat : Int) = ((s.readReg rs).toNat + imm.toInt) % 2 ^ 32) ∧
    (∃ t v, exec (.andi rt rs imm) s = .next t ∧ WroteGpr s t rt v (s.pc + 4) ∧
      ∀ k, v.getLsbD k = (decide (k < 16) && (s.readReg rs).getLsbD k && imm.getLsbD k)) ∧
    (∃ t v, exec (.lui rt imm) s = .next t ∧ WroteGpr s t rt v (s.pc + 4) ∧ v.toNat = imm.toNat * 2 ^ 16) ∧
    (∃ t v, exec (.ori rt rs imm) s = .next t ∧ WroteGpr s t rt v (s.pc + 4) ∧
      ∀ k, v.getLsbD k = if k < 16 then (s.readReg rs).getLsbD k || imm.getLsbD k else (s.readReg rs).getLsbD k) ∧
    (∃ t v, exec (.xori rt rs imm) s = .next t ∧ WroteGpr s t rt v (s.pc + 4) ∧
      ∀ k, v.getLsbD k = if k < 16 then (s.readReg rs).getLsbD k != imm.getLsbD k else (s.readReg rs).getLsbD k)

/-! ## HI and LO moves (spec/43_hilo_moves.md) -/

/-- R140 to R143: `mfhi`, `mthi`, `mflo`, `mtlo`, their encodings and results; writing one of HI and LO leaves the other
alone. They always complete. -/
def Obligations.HiLoMoves : Prop :=
  (∀ w : Word,
    (w &&& 0xFFFF07FF#32 = 0x00000010#32 → decodeWord w = some (.mfhi (w.extractLsb' 11 5))) ∧
    (w &&& 0xFC1FFFFF#32 = 0x00000011#32 → decodeWord w = some (.mthi (w.extractLsb' 21 5))) ∧
    (w &&& 0xFFFF07FF#32 = 0x00000012#32 → decodeWord w = some (.mflo (w.extractLsb' 11 5))) ∧
    (w &&& 0xFC1FFFFF#32 = 0x00000013#32 → decodeWord w = some (.mtlo (w.extractLsb' 21 5)))) ∧
  ∀ (s : State) (r : GReg),
    (∃ t, exec (.mfhi r) s = .next t ∧ WroteGpr s t r s.hi (s.pc + 4)) ∧
    (∃ t, exec (.mthi r) s = .next t ∧ WroteHiLo s t (s.readReg r) s.lo) ∧
    (∃ t, exec (.mflo r) s = .next t ∧ WroteGpr s t r s.lo (s.pc + 4)) ∧
    (∃ t, exec (.mtlo r) s = .next t ∧ WroteHiLo s t s.hi (s.readReg r))

/-! ## Shifts (spec/44_shifts.md) -/

/-- R150 to R152: `sll`, `srl`, `sra`, their encodings and results, by the arithmetic that the rules give beside the
formulas. They always complete. -/
def Obligations.ImmediateShifts : Prop :=
  (∀ w : Word,
    (w &&& 0xFFE0003F#32 = 0x00000000#32 →
      decodeWord w = some (.sll (w.extractLsb' 11 5) (w.extractLsb' 16 5) (w.extractLsb' 6 5))) ∧
    (w &&& 0xFFE0003F#32 = 0x00000002#32 →
      decodeWord w = some (.srl (w.extractLsb' 11 5) (w.extractLsb' 16 5) (w.extractLsb' 6 5))) ∧
    (w &&& 0xFFE0003F#32 = 0x00000003#32 →
      decodeWord w = some (.sra (w.extractLsb' 11 5) (w.extractLsb' 16 5) (w.extractLsb' 6 5)))) ∧
  ∀ (s : State) (rd rt : GReg) (sh : Shamt),
    (∃ t v, exec (.sll rd rt sh) s = .next t ∧ WroteGpr s t rd v (s.pc + 4) ∧
      v.toNat = ((s.readReg rt).toNat * 2 ^ sh.toNat) % 2 ^ 32) ∧
    (∃ t v, exec (.srl rd rt sh) s = .next t ∧ WroteGpr s t rd v (s.pc + 4) ∧
      v.toNat = (s.readReg rt).toNat / 2 ^ sh.toNat) ∧
    (∃ t v, exec (.sra rd rt sh) s = .next t ∧ WroteGpr s t rd v (s.pc + 4) ∧
      v.toInt = (s.readReg rt).toInt / 2 ^ sh.toNat)

/-- Derived (conflict C1, decision D19: the amount is bits 4..0 of `x[s]`): the results of `sllv`, `srlv`, `srav`. They
always complete (R153 to R155). -/
def Obligations.VariableShifts : Prop :=
  ∀ (s : State) (rd rt rs : GReg),
    (∃ t v, exec (.sllv rd rt rs) s = .next t ∧ WroteGpr s t rd v (s.pc + 4) ∧
      v.toNat = ((s.readReg rt).toNat * 2 ^ ((s.readReg rs).toNat % 32)) % 2 ^ 32) ∧
    (∃ t v, exec (.srlv rd rt rs) s = .next t ∧ WroteGpr s t rd v (s.pc + 4) ∧
      v.toNat = (s.readReg rt).toNat / 2 ^ ((s.readReg rs).toNat % 32)) ∧
    (∃ t v, exec (.srav rd rt rs) s = .next t ∧ WroteGpr s t rd v (s.pc + 4) ∧
      v.toInt = (s.readReg rt).toInt / 2 ^ ((s.readReg rs).toNat % 32))

/-! ## Branches and jumps (spec/46_branches.md, spec/47_compare_jump.md) -/

/-- Derived (no delay slot: decision D5; the signed comparison: D9; the wrap: D25): the six branches complete, jump to
`pc + 4 + 4 * offset` modulo `2^32` exactly when their condition holds, else to `pc + 4`, and change nothing else
(R170 to R176). -/
def Obligations.Branches : Prop :=
  ∀ (s : State) (rs rt : GReg) (imm : Imm16),
    let target := BitVec.ofInt 32 (s.pc.toNat + 4 + 4 * imm.toInt)
    let a := s.readReg rs
    (∃ t, exec (.bltz rs imm) s = .next t ∧ Jumped s t (if a.toInt < 0 then target else s.pc + 4)) ∧
    (∃ t, exec (.bgez rs imm) s = .next t ∧ Jumped s t (if 0 ≤ a.toInt then target else s.pc + 4)) ∧
    (∃ t, exec (.blez rs imm) s = .next t ∧ Jumped s t (if a.toInt ≤ 0 then target else s.pc + 4)) ∧
    (∃ t, exec (.bgtz rs imm) s = .next t ∧ Jumped s t (if 0 < a.toInt then target else s.pc + 4)) ∧
    (∃ t, exec (.beq rs rt imm) s = .next t ∧ Jumped s t (if a = s.readReg rt then target else s.pc + 4)) ∧
    (∃ t, exec (.bne rs rt imm) s = .next t ∧ Jumped s t (if a = s.readReg rt then s.pc + 4 else target))

/-- R182: `j`, its encoding and its target, the word number in the 256 MiB region of the `j`'s own address; it always
completes and changes nothing else. -/
def Obligations.JumpResult : Prop :=
  (∀ w : Word, w &&& 0xFC000000#32 = 0x08000000#32 → decodeWord w = some (.j (w.extractLsb' 0 26))) ∧
  ∀ (s : State) (target : Target), ∃ t a, exec (.j target) s = .next t ∧ Jumped s t a ∧
    a.toNat = s.pc.toNat / 2 ^ 28 * 2 ^ 28 + target.toNat * 4

/-- Derived (that the link is `pc + 4` and that nothing lies between rests on decision D5, the simultaneous writing on
D20): `jr`, `jal`, and `jalr` with `d ≠ s` complete; the link is the address after the jump (R183 to R185). -/
def Obligations.JrJalJalrResult : Prop :=
  ∀ (s : State) (rd rs : GReg) (target : Target),
    (∃ t, exec (.jr rs) s = .next t ∧ Jumped s t (s.readReg rs)) ∧
    (∃ t a, exec (.jal target) s = .next t ∧ WroteGpr s t 31 (s.pc + 4) a ∧
      a.toNat = s.pc.toNat / 2 ^ 28 * 2 ^ 28 + target.toNat * 4) ∧
    (rd ≠ rs → ∃ t, exec (.jalr rd rs) s = .next t ∧ WroteGpr s t rd (s.pc + 4) (s.readReg rs))

/-! ## Stops (spec/10_state.md R33 to R35, spec/20_memory.md R43, spec/47_compare_jump.md R185) -/

/-- Derived (decisions D11, D15, D20): an instruction is refused exactly when it is `jalr` with `d = s`, or, with
co-processor 0 usable, `mfc0` of a number other than 8, 12, 13, 14, `mtc0` of 8 or 14, or `mtc0` of a number other than 8,
12, 13, 14; the refusal names the case. -/
def Obligations.RefusedExactlyOnFormsWithoutMeaning : Prop :=
  ∀ (i : Instr) (s : State) (r : Refusal), exec i s = .refused r ↔
    (∃ d, i = .jalr d d ∧ r = .jalrLinkIsTarget) ∨
    (Cp0Usable s ∧ ∃ rt cd,
      (cd ≠ 8 ∧ cd ≠ 12 ∧ cd ≠ 13 ∧ cd ≠ 14 ∧ (i = .mfc0 rt cd ∨ i = .mtc0 rt cd) ∧ r = .controlRegisterAbsent cd) ∨
      ((cd = 8 ∨ cd = 14) ∧ i = .mtc0 rt cd ∧ r = .controlRegisterReadOnly cd))

/-- Derived (decision D17): an instruction is stuck only by its one data access, a load's or a store's, to an aligned and
allowed address outside MEM_VALID; a step is stuck only when no interrupt is due, by its fetch at such a program counter,
or by the instruction it fetched (R43, R203). -/
def Obligations.FaultsOnlyOutsideMemValid : Prop :=
  (∀ (i : Instr) (s : State) (f : Fault), exec i s = .fault f →
    ∃ kind width a, f = .outsideMemValid kind a ∧ Missing s width kind a ∧ ∃ rb imm, a = s.ea rb imm ∧
      ((kind = .load ∧ width = .word ∧ ((∃ rt, i = .lw rt rb imm) ∨ ∃ ft, i = .lwc1 ft rb imm)) ∨
        (kind = .load ∧ width = .byte ∧ ∃ rt, i = .lb rt rb imm ∨ i = .lbu rt rb imm) ∨
        (kind = .store ∧ width = .word ∧ ((∃ rt, i = .sw rt rb imm) ∨ ∃ ft, i = .swc1 ft rb imm)) ∨
        (kind = .store ∧ width = .byte ∧ ∃ rt, i = .sb rt rb imm))) ∧
  (∀ (s : State) (f : Fault), step s = .fault f → ¬ InterruptDue s ∧
    ((f = .outsideMemValid .fetch s.pc ∧ Missing s .word .fetch s.pc) ∨
      (Granted s .word .fetch s.pc ∧
        ∃ i, decodeWord s.beginStep.fetchedWord = some i ∧ exec i s.beginStep = .fault f)))

/-! ## Loads and stores (spec/40_load_store.md, spec/20_memory.md) -/

/-- Derived (the wrap is decision D25): the effective address is the base plus the sign-extended displacement, modulo
`2^32` (R57). -/
def Obligations.EffectiveAddressIsTheWrappedSum : Prop :=
  ∀ (s : State) (rb : GReg) (imm : Imm16),
    ((s.ea rb imm).toNat : Int) = ((s.readReg rb).toNat + imm.toInt) % 2 ^ 32

/-- Derived (the checks are decisions D4, D17, D23, the byte order the open parameter of D3): a load whose address passes the
checks and whose bytes are written completes with their value: `lw` and `lwc1` the word in the byte order of the run,
`lb` the signed and `lbu` the unsigned value of the byte (R44, R45, R100 to R102, R160). -/
def Obligations.LoadsReturnTheBytesOfMemory : Prop :=
  ∀ (s : State) (rt rb : GReg) (ft : FReg) (imm : Imm16) (b0 b1 b2 b3 : Byte),
    (Granted s .word .load (s.ea rb imm) → HoldsBytes s (s.ea rb imm) b0 b1 b2 b3 →
      (∃ t v, exec (.lw rt rb imm) s = .next t ∧ WroteGpr s t rt v (s.pc + 4) ∧
        v.toNat = wordValue s.cfg.byteOrder b0 b1 b2 b3) ∧
      (Cp1Usable s → ∃ t v, exec (.lwc1 ft rb imm) s = .next t ∧ WroteFpr s t ft v ∧
        v.toNat = wordValue s.cfg.byteOrder b0 b1 b2 b3)) ∧
    (Granted s .byte .load (s.ea rb imm) → s.mem.readByte (s.ea rb imm).toNat = some b0 →
      (∃ t v, exec (.lb rt rb imm) s = .next t ∧ WroteGpr s t rt v (s.pc + 4) ∧ v.toInt = b0.toInt) ∧
      (∃ t v, exec (.lbu rt rb imm) s = .next t ∧ WroteGpr s t rt v (s.pc + 4) ∧ v.toNat = b0.toNat))

/-- Derived (unwritten bytes read as draws, R38, U16, log 8): a load whose address passes the checks completes whatever
memory holds there; the bytes that are written come through at their places, and `lb`, `lbu` extend one byte. -/
def Obligations.LoadsCompleteOnAnyMemory : Prop :=
  ∀ (s : State) (rt rb : GReg) (ft : FReg) (imm : Imm16),
    (Granted s .word .load (s.ea rb imm) →
      (∃ t v, exec (.lw rt rb imm) s = .next t ∧ WroteGpr s t rt v (s.pc + 4) ∧
        ∀ k < 4, ∀ b, s.mem.readByte (byteAddress (s.ea rb imm) k) = some b →
          v.extractLsb' (8 * lane s.cfg.byteOrder k) 8 = b) ∧
      (Cp1Usable s → ∃ t v, exec (.lwc1 ft rb imm) s = .next t ∧ WroteFpr s t ft v ∧
        ∀ k < 4, ∀ b, s.mem.readByte (byteAddress (s.ea rb imm) k) = some b →
          v.extractLsb' (8 * lane s.cfg.byteOrder k) 8 = b)) ∧
    (Granted s .byte .load (s.ea rb imm) →
      (∃ t v, exec (.lb rt rb imm) s = .next t ∧ WroteGpr s t rt v (s.pc + 4) ∧ -128 ≤ v.toInt ∧ v.toInt < 128) ∧
      (∃ t v, exec (.lbu rt rb imm) s = .next t ∧ WroteGpr s t rt v (s.pc + 4) ∧ v.toNat < 256))

/-- Derived (the checks are decisions D4, D17, D23, the byte order the open parameter of D3): a store whose address passes
the checks completes; `sw` and `swc1` write the four bytes of the register in the byte order of the run, `sb` the low byte;
no other byte and no register changes (R44, R45, R103, R104, R161). -/
def Obligations.StoresWriteTheirBytes : Prop :=
  ∀ (s : State) (rt rb : GReg) (ft : FReg) (imm : Imm16),
    (Granted s .word .store (s.ea rb imm) →
      (∃ t, exec (.sw rt rb imm) s = .next t ∧ WroteBytes s t (s.ea rb imm) 4
        (fun k => (s.readReg rt).extractLsb' (8 * lane s.cfg.byteOrder k) 8)) ∧
      (Cp1Usable s → ∃ t, exec (.swc1 ft rb imm) s = .next t ∧ WroteBytes s t (s.ea rb imm) 4
        (fun k => (s.readFReg ft).extractLsb' (8 * lane s.cfg.byteOrder k) 8))) ∧
    (Granted s .byte .store (s.ea rb imm) →
      ∃ t, exec (.sb rt rb imm) s = .next t ∧ WroteBytes s t (s.ea rb imm) 1
        (fun _ => (s.readReg rt).extractLsb' 0 8))

/-- Derived (decisions D3, D17): after `sw` of a register, a `lw` from the same address, by whatever base, brings the word
back, and `lbu` from `k` bytes above brings back the byte of the word that the byte order puts there (R44, R50). -/
def Obligations.StoreThenLoad : Prop :=
  ∀ (s t : State) (rt rb rd rc : GReg) (imm disp : Imm16) (k : Nat), Granted s .word .store (s.ea rb imm) →
    exec (.sw rt rb imm) s = .next t → k < 4 → (t.ea rc disp).toNat = byteAddress (s.ea rb imm) k →
    (k = 0 → Granted t .word .load (t.ea rc disp) →
      ∃ u, exec (.lw rd rc disp) t = .next u ∧ WroteGpr t u rd (s.readReg rt) (t.pc + 4)) ∧
    (Granted t .byte .load (t.ea rc disp) →
      ∃ u v, exec (.lbu rd rc disp) t = .next u ∧ WroteGpr t u rd v (t.pc + 4) ∧
        v.toNat = (s.readReg rt).toNat / 2 ^ (8 * lane s.cfg.byteOrder k) % 256)

/-- Derived (decisions D4, D23): a load whose address is misaligned for its width or forbidden by ADDR_OK raises
AddressErrorLoad, a store AddressErrorStore, with the effective address as bad address; no register and no byte changes
(R45, R47, R208). -/
def Obligations.DataAddressErrors : Prop :=
  ∀ (s : State) (rt rb : GReg) (ft : FReg) (imm : Imm16),
    (Denied s .word .load (s.ea rb imm) →
      (∃ t, exec (.lw rt rb imm) s = .next t ∧ Trapped s t (.addressErrorLoad (s.ea rb imm))) ∧
      (Cp1Usable s → ∃ t, exec (.lwc1 ft rb imm) s = .next t ∧ Trapped s t (.addressErrorLoad (s.ea rb imm)))) ∧
    (Denied s .byte .load (s.ea rb imm) →
      (∃ t, exec (.lb rt rb imm) s = .next t ∧ Trapped s t (.addressErrorLoad (s.ea rb imm))) ∧
      (∃ t, exec (.lbu rt rb imm) s = .next t ∧ Trapped s t (.addressErrorLoad (s.ea rb imm)))) ∧
    (Denied s .word .store (s.ea rb imm) →
      (∃ t, exec (.sw rt rb imm) s = .next t ∧ Trapped s t (.addressErrorStore (s.ea rb imm))) ∧
      (Cp1Usable s → ∃ t, exec (.swc1 ft rb imm) s = .next t ∧ Trapped s t (.addressErrorStore (s.ea rb imm)))) ∧
    (Denied s .byte .store (s.ea rb imm) →
      ∃ t, exec (.sb rt rb imm) s = .next t ∧ Trapped s t (.addressErrorStore (s.ea rb imm)))

/-- Derived (decision D17, U12): a load or store whose address is aligned and allowed but outside MEM_VALID has no next
state: the model faults, naming the access and its address (R43). -/
def Obligations.OutsideMemValidIsStuck : Prop :=
  ∀ (s : State) (rt rb : GReg) (ft : FReg) (imm : Imm16),
    (Missing s .word .load (s.ea rb imm) →
      exec (.lw rt rb imm) s = .fault (.outsideMemValid .load (s.ea rb imm)) ∧
      (Cp1Usable s → exec (.lwc1 ft rb imm) s = .fault (.outsideMemValid .load (s.ea rb imm)))) ∧
    (Missing s .byte .load (s.ea rb imm) →
      exec (.lb rt rb imm) s = .fault (.outsideMemValid .load (s.ea rb imm)) ∧
      exec (.lbu rt rb imm) s = .fault (.outsideMemValid .load (s.ea rb imm))) ∧
    (Missing s .word .store (s.ea rb imm) →
      exec (.sw rt rb imm) s = .fault (.outsideMemValid .store (s.ea rb imm)) ∧
      (Cp1Usable s → exec (.swc1 ft rb imm) s = .fault (.outsideMemValid .store (s.ea rb imm)))) ∧
    (Missing s .byte .store (s.ea rb imm) →
      exec (.sb rt rb imm) s = .fault (.outsideMemValid .store (s.ea rb imm)))

/-! ## Floating point (spec/45_floating_point.md) -/

/-- Derived (the record FP is decision D18, the check of CU1 decision D15): with CU1 set, the six computing instructions
complete and write what the record of the run gives for the operands: the default's functions, or the platform's own, of
which nothing is known (R162 to R168). Under either record (DEDUCED, log 21) an invalid operation writes a NaN by the draw,
every NaN pattern being possible, and an invalid `cvt.w.s` writes the draw (R169, U8); the draw is for these alone (log 7). -/
def Obligations.FloatComputesItsRecord : Prop :=
  ∀ (s : State) (fd fs ft : FReg), Cp1Usable s →
    let a := s.readFReg fs
    let b := s.readFReg ft
    (∃ t v, exec (.addS fd fs ft) s = .next t ∧ WroteFpr s t fd v ∧
      (s.cfg.fp = .ieeeRne → v = ieeeAdd a b (Config.draw s.draws)) ∧
      (s.cfg.fp = .platform → ¬ InvalidAdd a b → v = Config.platformAdd a b) ∧
      (InvalidAdd a b → NaNOfDraw v (Config.draw s.draws))) ∧
    (∃ t v, exec (.subS fd fs ft) s = .next t ∧ WroteFpr s t fd v ∧
      (s.cfg.fp = .ieeeRne → v = ieeeSub a b (Config.draw s.draws)) ∧
      (s.cfg.fp = .platform → ¬ InvalidSub a b → v = Config.platformSub a b) ∧
      (InvalidSub a b → NaNOfDraw v (Config.draw s.draws))) ∧
    (∃ t v, exec (.mulS fd fs ft) s = .next t ∧ WroteFpr s t fd v ∧
      (s.cfg.fp = .ieeeRne → v = ieeeMul a b (Config.draw s.draws)) ∧
      (s.cfg.fp = .platform → ¬ InvalidMul a b → v = Config.platformMul a b) ∧
      (InvalidMul a b → NaNOfDraw v (Config.draw s.draws))) ∧
    (∃ t v, exec (.divS fd fs ft) s = .next t ∧ WroteFpr s t fd v ∧
      (s.cfg.fp = .ieeeRne → v = ieeeDiv a b (Config.draw s.draws)) ∧
      (s.cfg.fp = .platform → ¬ InvalidDiv a b → v = Config.platformDiv a b) ∧
      (InvalidDiv a b → NaNOfDraw v (Config.draw s.draws))) ∧
    (∃ t v, exec (.cvtSW fd fs) s = .next t ∧ WroteFpr s t fd v ∧
      (s.cfg.fp = .ieeeRne → v = ieeeCvtSW a) ∧ (s.cfg.fp = .platform → v = Config.platformCvtSW a)) ∧
    (∃ t v, exec (.cvtWS fd fs) s = .next t ∧ WroteFpr s t fd v ∧
      (s.cfg.fp = .ieeeRne → v = ieeeCvtWS a (Config.draw s.draws)) ∧
      (s.cfg.fp = .platform → ¬ InvalidCvtWS a → v = Config.platformCvtWS a) ∧
      (InvalidCvtWS a → v = Config.draw s.draws))

/-- Derived (decision D18): the exactness clause of R168. Where the exact result of finite operands is the value of a
finite pattern that is not zero, that pattern is the result; an exact zero gives a zero; a pattern whose value is an
integer in range converts to it. Values are counted in units of `2^-149`. -/
def Obligations.FloatExactResults : Prop :=
  ∀ a b r d : Word, FpFinite a → FpFinite b → FpFinite r →
    (fpUnits r ≠ 0 →
      (fpUnits r = fpUnits a + fpUnits b → ieeeAdd a b d = r) ∧
      (fpUnits r = fpUnits a - fpUnits b → ieeeSub a b d = r) ∧
      (fpUnits r * 2 ^ 149 = fpUnits a * fpUnits b → ieeeMul a b d = r) ∧
      (fpUnits r * fpUnits b = fpUnits a * 2 ^ 149 → fpUnits b ≠ 0 → ieeeDiv a b d = r) ∧
      (∀ w : Word, fpUnits r = w.toInt * 2 ^ 149 → ieeeCvtSW w = r)) ∧
    (fpUnits a + fpUnits b = 0 → fpUnits (ieeeAdd a b d) = 0 ∧ FpFinite (ieeeAdd a b d)) ∧
    (fpUnits a = fpUnits b → fpUnits (ieeeSub a b d) = 0 ∧ FpFinite (ieeeSub a b d)) ∧
    (∀ w : Word, fpUnits a = w.toInt * 2 ^ 149 → ieeeCvtWS a d = w)

/-- Derived (decision D18): `FP_IEEE_RNE`. Sum, difference, product and quotient of finite operands and the conversion of an
integer are the exact result rounded to nearest, ties to even, with gradual underflow and overflow to the infinity of the
sign; `cvt.w.s` rounds to the nearest integer, ties to even (R167, R168). -/
def Obligations.FloatRoundsToNearestEven : Prop :=
  ∀ a b d : Word, FpFinite a → FpFinite b →
    (fpUnits a + fpUnits b ≠ 0 →
      RoundedTo (ieeeAdd a b d) (decide (fpUnits a + fpUnits b < 0)) (fpUnits a + fpUnits b).natAbs 1) ∧
    (fpUnits a - fpUnits b ≠ 0 →
      RoundedTo (ieeeSub a b d) (decide (fpUnits a - fpUnits b < 0)) (fpUnits a - fpUnits b).natAbs 1) ∧
    RoundedTo (ieeeMul a b d) (fpSign a != fpSign b) (fpMagUnits a * fpMagUnits b) (2 ^ 149) ∧
    (fpMagUnits b ≠ 0 →
      RoundedTo (ieeeDiv a b d) (fpSign a != fpSign b) (fpMagUnits a * 2 ^ 149) (fpMagUnits b)) ∧
    (∀ w : Word, RoundedTo (ieeeCvtSW w) (decide (w.toInt < 0)) (w.toInt.natAbs * 2 ^ 149) 1) ∧
    (∃ n : Int, (2 * (fpUnits a - n * 2 ^ 149)).natAbs ≤ 2 ^ 149 ∧
      ((2 * (fpUnits a - n * 2 ^ 149)).natAbs = 2 ^ 149 → n % 2 = 0) ∧
      (-2 ^ 31 ≤ n ∧ n < 2 ^ 31 → (ieeeCvtWS a d).toInt = n) ∧
      (n < -2 ^ 31 ∨ 2 ^ 31 ≤ n → ieeeCvtWS a d = d))

/-- Derived (decision D18; what R168 leaves to IEEE 754 is taken from that standard, log 6): the special values of the
default record (R168, R169). A NaN operand, `inf - inf`, `0 * inf`, `0/0` and `inf/inf`, and nothing else, give a NaN, and
by the draw every NaN pattern is possible. An infinity with an infinity or with a finite operand, on either side, gives the
infinity or zero of IEEE 754; `x/0` is an infinity. A zero sum or difference is `+0`, but for zeros that agree on `-0`.
`cvt.w.s` of a NaN or an infinity is the draw itself. -/
def Obligations.FloatSpecialValues : Prop :=
  ∀ a b d : Word,
    (DrawsItsNaN ieeeAdd (InvalidAdd a b) a b ∧ DrawsItsNaN ieeeSub (InvalidSub a b) a b ∧
      DrawsItsNaN ieeeMul (InvalidMul a b) a b ∧ DrawsItsNaN ieeeDiv (InvalidDiv a b) a b) ∧
    (fpIsInf a = true → fpIsInf b = true →
      (fpSign a ≠ fpSign b → ieeeSub a b d = a) ∧ (fpSign a = fpSign b → ieeeAdd a b d = a) ∧
      fpIsInf (ieeeMul a b d) = true ∧ fpSign (ieeeMul a b d) = (fpSign a != fpSign b)) ∧
    (fpIsInf a = true → FpFinite b →
      ieeeAdd a b d = a ∧ ieeeAdd b a d = a ∧ ieeeSub a b d = a ∧
      fpIsInf (ieeeSub b a d) = true ∧ fpSign (ieeeSub b a d) = (!fpSign a) ∧
      (fpIsZero b = false →
        fpIsInf (ieeeMul a b d) = true ∧ fpSign (ieeeMul a b d) = (fpSign a != fpSign b) ∧
        fpIsInf (ieeeMul b a d) = true ∧ fpSign (ieeeMul b a d) = (fpSign b != fpSign a)) ∧
      fpIsInf (ieeeDiv a b d) = true ∧ fpSign (ieeeDiv a b d) = (fpSign a != fpSign b) ∧
      fpIsZero (ieeeDiv b a d) = true ∧ fpSign (ieeeDiv b a d) = (fpSign b != fpSign a)) ∧
    (FpFinite a → fpIsZero a = false → fpIsZero b = true →
      fpIsInf (ieeeDiv a b d) = true ∧ fpSign (ieeeDiv a b d) = (fpSign a != fpSign b)) ∧
    (FpFinite a → FpFinite b →
      (fpUnits a + fpUnits b = 0 → fpIsZero (ieeeAdd a b d) = true ∧
        (fpSign (ieeeAdd a b d) = true ↔ fpIsZero a = true ∧ fpSign a = true ∧ fpSign b = true)) ∧
      (fpUnits a - fpUnits b = 0 → fpIsZero (ieeeSub a b d) = true ∧
        (fpSign (ieeeSub a b d) = true ↔ fpIsZero a = true ∧ fpSign a = true ∧ fpSign b = false)) ∧
      ieeeSub a a d = 0x00000000#32) ∧
    (fpIsNaN a = true ∨ fpIsInf a = true → ieeeCvtWS a d = d)

/-- Derived (decision D15): with CU1 clear, in either mode, each of the ten co-processor 1 instructions raises
CoprocessorUnusable for unit 1 and does nothing else, whatever its address (R206). -/
def Obligations.Cp1UnusableRaises : Prop :=
  ∀ (s : State) (i : Instr), s.status.getLsbD 29 = false →
    ((∃ ft rb imm, i = .lwc1 ft rb imm ∨ i = .swc1 ft rb imm) ∨
      (∃ fd fs ft, i = .addS fd fs ft ∨ i = .subS fd fs ft ∨ i = .mulS fd fs ft ∨ i = .divS fd fs ft) ∨
      (∃ fd fs, i = .cvtSW fd fs ∨ i = .cvtWS fd fs) ∨ (∃ rt fd, i = .mfc1 rt fd ∨ i = .mtc1 rt fd)) →
    ∃ t, exec i s = .next t ∧ Trapped s t (.coprocessorUnusable 1)

/-! ## System and co-processor moves (spec/48_system_coprocessor.md) -/

/-- Derived (decision D15): in user mode without CU0, `rfe`, and `mfc0` and `mtc0` of any control register, raise
CoprocessorUnusable for unit 0 and do nothing else (R206, R226). -/
def Obligations.Cp0UnusableRaises : Prop :=
  ∀ (s : State) (i : Instr), s.status.getLsbD 1 = true → s.status.getLsbD 28 = false →
    (i = .rfe ∨ ∃ rt cd, i = .mfc0 rt cd ∨ i = .mtc0 rt cd) →
    ∃ t, exec i s = .next t ∧ Trapped s t (.coprocessorUnusable 0)

/-- Derived (the registers and their layout are decisions D11, D12): with co-processor 0 usable, `mfc0` completes for each
of the four registers: BadVAddr and EPC whole, Status in its function bits, Cause in its fields, IP[7:2] being the lines
as sampled. The other bits are draws and nothing is said of them (R31 to R34, R193). -/
def Obligations.Mfc0ReadsControlRegisters : Prop :=
  ∀ (s : State) (rt : GReg), Cp0Usable s →
    (∃ t, exec (.mfc0 rt 8) s = .next t ∧ WroteGpr s t rt s.badVAddr (s.pc + 4)) ∧
    (∃ t v, exec (.mfc0 rt 12) s = .next t ∧ WroteGpr s t rt v (s.pc + 4) ∧
      ∀ k, StatusFunctionBit k → v.getLsbD k = s.status.getLsbD k) ∧
    (∃ t v, exec (.mfc0 rt 13) s = .next t ∧ WroteGpr s t rt v (s.pc + 4) ∧
      v.extractLsb' 2 5 = s.cause.excCode ∧ v.extractLsb' 8 2 = s.cause.ip ∧ v.extractLsb' 10 6 = s.irq ∧
      v.extractLsb' 28 2 = s.cause.ce ∧ v.extractLsb' 31 1 = s.cause.bd) ∧
    (∃ t, exec (.mfc0 rt 14) s = .next t ∧ WroteGpr s t rt s.epc (s.pc + 4))

/-- Derived (decisions D11, D12): with co-processor 0 usable, `mtc0` completes for Status, whose function bits become those
of `x[t]`, and for Cause, of which bits 9..8 alone are written; nothing else changes (R31, R32, R194). -/
def Obligations.Mtc0WritesStatusAndCause : Prop :=
  ∀ (s : State) (rt : GReg), Cp0Usable s →
    (∃ t, exec (.mtc0 rt 12) s = .next t ∧ WroteControl s t ∧
      (∀ k, StatusFunctionBit k → t.status.getLsbD k = (s.readReg rt).getLsbD k) ∧
      t.cause = s.cause ∧ t.epc = s.epc ∧ t.badVAddr = s.badVAddr) ∧
    (∃ t, exec (.mtc0 rt 13) s = .next t ∧ WroteControl s t ∧
      t.cause = { s.cause with ip := (s.readReg rt).extractLsb' 8 2 } ∧
      t.status = s.status ∧ t.epc = s.epc ∧ t.badVAddr = s.badVAddr)

/-- Derived (decision D12): with co-processor 0 usable, `rfe` completes: Status bits 3..0 become bits 5..2, every other bit
of Status, Cause, EPC and BadVAddr stay, and the program counter only advances (R192, R211). -/
def Obligations.RfePopsTheStatusStack : Prop :=
  ∀ s : State, Cp0Usable s → ∃ t, exec .rfe s = .next t ∧ WroteControl s t ∧
    (∀ k < 4, t.status.getLsbD k = s.status.getLsbD (k + 2)) ∧
    (∀ k, 4 ≤ k → t.status.getLsbD k = s.status.getLsbD k) ∧
    t.cause = s.cause ∧ t.epc = s.epc ∧ t.badVAddr = s.badVAddr

/-- Derived (the check of CU1 is decision D15): with CU1 set, `mfc1` and `mtc1` complete and copy the 32 bits, unconverted
(R27, R195, R196). -/
def Obligations.Mfc1Mtc1MoveBits : Prop :=
  ∀ (s : State) (rt : GReg) (fd : FReg), Cp1Usable s →
    (∃ t, exec (.mfc1 rt fd) s = .next t ∧ WroteGpr s t rt (s.readFReg fd) (s.pc + 4)) ∧
    (∃ t, exec (.mtc1 rt fd) s = .next t ∧ WroteFpr s t fd (s.readReg rt))

/-- Derived (that they save state is decision D12, that the free bits of `break` do nothing D22): `syscall` and `break`
complete in every mode, each by taking its exception; both go to the one handler address (R190, R191, R209). -/
def Obligations.SyscallAndBreakEnterTheHandler : Prop :=
  ∀ (s : State) (upper : BitVec 14) (lower : BitVec 5),
    (∃ t, exec .syscall s = .next t ∧ Trapped s t .syscall) ∧
    (∃ t, exec (.brk upper lower) s = .next t ∧ Trapped s t .breakpoint)

/-! ## Registers, reset and whole-machine rules -/

/-- Derived (decision D2): under R0_ZERO register 0 reads 0 in every state, and an instruction that names it as destination
changes no general register; without R0_ZERO it is an ordinary register that `ori` can set to any 16-bit value (R21). -/
def Obligations.RegisterZeroIsHardwired : Prop :=
  (∀ s : State, s.cfg.r0Zero = true → s.readReg 0 = 0) ∧
  (∀ (i : Instr) (s t : State), s.cfg.r0Zero = true → gprWritten i = some 0 → exec i s = .next t →
    ∀ q : GReg, t.readReg q = s.readReg q) ∧
  (∀ (s : State) (imm : Imm16), s.cfg.r0Zero = false → s.readReg 1 = 0 →
    ∃ t, exec (.ori 0 1 imm) s = .next t ∧ (t.readReg 0).toNat = imm.toNat)

/-- Derived (decision D13; the defaults of the parameters are D2, D8, D10, D13, D18, D23): what R37 and R241 give for the
state after reset, under the default parameters of R4. Nothing is said of what R37 leaves unspecified (log 10), nor of
the two parameters that have no default (log 2, log 3). That memory lists no byte (`mem = []`) is no value of R37, which
leaves memory to the platform, but the model's choice (log 8, log 11). -/
def Obligations.ResetStateHasTheSpecifiedValues : Prop :=
  State.reset.pc = 0xBFC00000#32 ∧ State.reset.mode = .kernel ∧ State.reset.interruptEnable = false ∧
  State.reset.readReg 0 = 0#32 ∧ State.reset.cause.bd = 0#1 ∧ State.reset.mem = [] ∧
  State.reset.cfg.exceptionHandler = 0x80000080#32 ∧ State.reset.cfg.resetPc = 0xBFC00000#32 ∧
  State.reset.cfg.r0Zero = true ∧ State.reset.cfg.divRounding = .truncate ∧ State.reset.cfg.fp = .ieeeRne ∧
  (∀ (m : Mode) (a : Word) (k : AccessKind), addrOk State.reset.cfg m a k = true) ∧
  ∀ c : Config, (State.resetWith c).pc = c.resetPc ∧ (State.resetWith c).mode = .kernel ∧
    (State.resetWith c).interruptEnable = false ∧ (State.resetWith c).cfg = c

/-- Derived (decisions D2, D5, D17): the state after reset, under any parameters, satisfies the invariant: memory is
canonical and within MEM_VALID, the hard-wired register holds zero, BD is 0. -/
def Obligations.ResetSatisfiesTheInvariant : Prop :=
  State.reset.Inv ∧ ∀ c : Config, (State.resetWith c).Inv

/-- Derived (decisions D2, D5, D17): every step keeps the invariant, from every state that satisfies it: memory stays in
its canonical form (log 8) and within MEM_VALID, for a store never creates a byte outside it (R43); register 0 stays zero
under R0_ZERO (R21); BD stays 0 (R32). -/
def Obligations.StepKeepsTheInvariant : Prop :=
  ∀ s t : State, s.Inv → step s = .next t → t.Inv

/-- Derived (decisions D12, D15): in user mode without CU0 no step changes Status, Cause, EPC or BadVAddr but by taking an
exception, which enters kernel mode at the handler's address (R206, R210, R225, R226). -/
def Obligations.UserModeCannotTouchControlState : Prop :=
  ∀ s t : State, s.mode = .user → s.status.getLsbD 28 = false → step s = .next t →
    (SameControl s t ∧ t.mode = .user) ∨
    (∃ e, Trapped s.beginStep t e ∧ t.mode = .kernel ∧ t.pc = s.cfg.exceptionHandler)

/-- Derived (decision D15): kernel mode is left only by `rfe`, restoring the saved user mode, or by `mtc0` to Status of a
word with KUc set; no exception, interrupt or other instruction leaves it (R210, R225). -/
def Obligations.OnlyRfeAndMtc0EnterUserMode : Prop :=
  ∀ s t : State, s.mode = .kernel → step s = .next t → t.mode = .user →
    ∃ i, decodeWord s.beginStep.fetchedWord = some i ∧
      ((i = .rfe ∧ s.status.getLsbD 3 = true) ∨ ∃ rt, i = .mtc0 rt 12 ∧ (s.readReg rt).getLsbD 1 = true)
end

