-- ==== Sys2Proof/Laws/Decode.lean ====
section
/-! SUPPORT. Sys2Proof/Laws/Decode.lean: no word satisfies two rows of the opcode table (spec/30_encoding.md R70), so a word
decodes to the row it matches; the fields of an assembled word. -/

namespace Sys2Proof

/-- A bit that both masks fix and the two patterns give different values. -/
def Row.apart (r q : Row) : Bool := r.mask &&& q.mask &&& (r.pat ^^^ q.pat) != 0

/-- The 60 rows are pairwise apart (R70). -/
theorem opcodeTable_pairwise_apart : opcodeTable.Pairwise (fun r q => r.apart q = true) := by decide

/-- A word that satisfies two rows does not tell them apart. -/
theorem not_apart_of_admits (r q : Row) (w : Word) (hr : r.admits w = true) (hq : q.admits w = true) :
    r.apart q = false := by
  simp only [Row.admits, beq_iff_eq] at hr hq
  simp only [Row.apart, bne_eq_false_iff_eq, ← hr, ← hq]
  apply BitVec.eq_of_getLsbD_eq
  intro i hi
  simp only [BitVec.getLsbD_and, BitVec.getLsbD_xor]
  cases w.getLsbD i <;> cases r.mask.getLsbD i <;> cases q.mask.getLsbD i <;> simp

/-- In a list of rows that are pairwise apart, the search for a word finds the row it satisfies. -/
theorem find_admits_of_mem (rows : List Row) (hp : rows.Pairwise (fun r q => r.apart q = true)) (r : Row)
    (hr : r ∈ rows) (w : Word) (hw : r.admits w = true) : rows.find? (fun q => q.admits w) = some r := by
  induction rows with
  | nil => simp at hr
  | cons q rows ih =>
    rw [List.pairwise_cons] at hp
    rcases List.mem_cons.1 hr with rfl | hmem
    · simp [hw]
    · have hq : q.admits w = false := by
        by_contra hq
        have := not_apart_of_admits q r w (by simpa using hq) hw
        simp [hp.1 r hmem] at this
      rw [List.find?_cons_of_neg (by simp [hq])]
      exact ih hp.2 hmem

/-- A word that matches a row of the table decodes to that row's instruction (R70). -/
theorem decodeWord_of_admits (r : Row) (hr : r ∈ opcodeTable) (w : Word) (hw : r.admits w = true) :
    decodeWord w = some (r.build w) := by
  simp [decodeWord, find_admits_of_mem opcodeTable opcodeTable_pairwise_apart r hr w hw]

/-- A decoded word matches a row of the table, whose instruction it is (R70). -/
theorem admits_of_decodeWord {w : Word} {i : Instr} (h : decodeWord w = some i) :
    ∃ r ∈ opcodeTable, r.admits w = true ∧ i = r.build w := by
  simp only [decodeWord, Option.map_eq_some_iff] at h
  obtain ⟨r, hr, rfl⟩ := h
  exact ⟨r, List.mem_of_find?_eq_some hr, by simpa using List.find?_some hr, rfl⟩

/-- A word is reserved exactly when no row matches it (R80). -/
theorem decodeWord_eq_none_iff (w : Word) : decodeWord w = none ↔ ∀ r ∈ opcodeTable, r.admits w = false := by
  simp [decodeWord, List.find?_eq_none]

/-- The fields of a word put together in format I (R61, R62). -/
theorem fields_encodeI (op : BitVec 6) (s t : BitVec 5) (imm : Imm16) :
    fieldS (encodeI op s t imm) = s ∧ fieldT (encodeI op s t imm) = t ∧ fieldImm (encodeI op s t imm) = imm := by
  refine ⟨?_, ?_, ?_⟩ <;>
  · apply BitVec.eq_of_getLsbD_eq
    intro i hi
    simp only [fieldS, fieldT, fieldImm, encodeI, BitVec.getLsbD_extractLsb', BitVec.getLsbD_append]
    interval_cases i <;> simp

/-- The fields of a word put together in format R (R61, R62). -/
theorem fields_encodeR (s t d sh : BitVec 5) (fn : BitVec 6) :
    fieldS (encodeR s t d sh fn) = s ∧ fieldT (encodeR s t d sh fn) = t ∧ fieldD (encodeR s t d sh fn) = d ∧
      fieldSh (encodeR s t d sh fn) = sh := by
  refine ⟨?_, ?_, ?_, ?_⟩ <;>
  · apply BitVec.eq_of_getLsbD_eq
    intro i hi
    simp only [fieldS, fieldT, fieldD, fieldSh, encodeR, BitVec.getLsbD_extractLsb', BitVec.getLsbD_append]
    interval_cases i <;> simp

/-- The fields of a word put together in format FR (R61, R62). -/
theorem fields_encodeFR (fmt ft fs fd : BitVec 5) (fn : BitVec 6) :
    fieldFt (encodeFR fmt ft fs fd fn) = ft ∧ fieldFs (encodeFR fmt ft fs fd fn) = fs ∧
      fieldFd (encodeFR fmt ft fs fd fn) = fd := by
  refine ⟨?_, ?_, ?_⟩ <;>
  · apply BitVec.eq_of_getLsbD_eq
    intro i hi
    simp only [fieldFt, fieldFs, fieldFd, encodeFR, BitVec.getLsbD_extractLsb', BitVec.getLsbD_append]
    interval_cases i <;> simp

/-- The fields of a word put together in format CM (R61, R62). -/
theorem fields_encodeCM (z : BitVec 2) (sub t d : BitVec 5) :
    fieldT (encodeCM z sub t d) = t ∧ fieldD (encodeCM z sub t d) = d := by
  refine ⟨?_, ?_⟩ <;>
  · apply BitVec.eq_of_getLsbD_eq
    intro i hi
    simp only [fieldT, fieldD, encodeCM, BitVec.getLsbD_extractLsb', BitVec.getLsbD_append]
    interval_cases i <;> simp

/-- The field of a word put together in format J (R61, R62). -/
theorem field_encodeJ (op : BitVec 6) (tgt : Target) : fieldTarget (encodeJ op tgt) = tgt := by
  apply BitVec.eq_of_getLsbD_eq
  intro i hi
  simp only [fieldTarget, encodeJ, BitVec.getLsbD_extractLsb', BitVec.getLsbD_append]
  interval_cases i <;> simp

end Sys2Proof
end

