-- ==== Sys2Proof/Laws/Memory.lean ====
section
/-! SUPPORT. Sys2Proof/Laws/Memory.lean: the laws of memory (spec/20_memory.md R41, R45): a read after a write, what a write
leaves alone, and that every write keeps the canonical form. -/

namespace Sys2Proof.Machine

@[simp] theorem readByte_nil (a : Nat) : Memory.readByte [] a = none := rfl

theorem readByte_cons (c : Host.Cell) (m : Memory) (a : Nat) :
    Memory.readByte (c :: m) a = if c.1 = a then some c.2 else m.readByte a := rfl

/-- A byte read after a byte written: the value at the written address, the old answer elsewhere. -/
theorem readByte_writeByte (m : Memory) (a b : Nat) (v : Byte) :
    (m.writeByte a v).readByte b = if b = a then some v else m.readByte b := by
  induction m with
  | nil => simp [Memory.writeByte, Memory.readByte, eq_comm]
  | cons c m ih =>
    obtain ⟨k, u⟩ := c
    by_cases hb : b = a
    · subst hb
      simp only [Memory.writeByte]
      split
      · simp [Memory.readByte]
      · split
        · simp [Memory.readByte]
        · rename_i h
          simpa [Memory.readByte, Ne.symm h] using ih
    · simp only [Memory.writeByte]
      split
      · simp [Memory.readByte, Ne.symm hb]
      · split
        · rename_i h
          subst h
          simp [Memory.readByte, Ne.symm hb]
        · simp [Memory.readByte, ih, hb]

@[simp] theorem readByte_writeByte_self (m : Memory) (a : Nat) (v : Byte) :
    (m.writeByte a v).readByte a = some v := by simp [readByte_writeByte]

theorem readByte_writeByte_of_ne (m : Memory) {a b : Nat} (v : Byte) (h : b ≠ a) :
    (m.writeByte a v).readByte b = m.readByte b := by simp [readByte_writeByte, h]

/-- A write keeps a rising list rising. -/
theorem risesFrom_writeByte (m : Memory) (lo a : Nat) (v : Byte) (hlo : lo ≤ a) (ha : a < 2 ^ 32)
    (h : m.risesFrom lo = true) : (m.writeByte a v).risesFrom lo = true := by
  induction m generalizing lo with
  | nil => simp [Memory.writeByte, Memory.risesFrom, hlo]; omega
  | cons c m ih =>
    obtain ⟨k, u⟩ := c
    simp only [Memory.risesFrom, Bool.and_eq_true, decide_eq_true_eq] at h
    obtain ⟨⟨h1, h2⟩, h3⟩ := h
    simp only [Memory.writeByte]
    split
    · simp only [Memory.risesFrom, Bool.and_eq_true, decide_eq_true_eq]
      exact ⟨⟨hlo, ha⟩, ⟨by omega, h2⟩, h3⟩
    · split
      · rename_i h; subst h
        simp only [Memory.risesFrom, Bool.and_eq_true, decide_eq_true_eq]
        exact ⟨⟨h1, h2⟩, h3⟩
      · simp only [Memory.risesFrom, Bool.and_eq_true, decide_eq_true_eq]
        exact ⟨⟨h1, h2⟩, ih (k + 1) (by omega) h3⟩

/-- A byte write keeps the canonical form. -/
theorem wf_writeByte (m : Memory) (a : Nat) (v : Byte) (ha : a < 2 ^ 32) (h : m.wf = true) :
    (m.writeByte a v).wf = true := risesFrom_writeByte m 0 a v (Nat.zero_le a) ha h

theorem byteAddress_lt (a : Word) (k : Nat) : byteAddress a k < 2 ^ 32 := (a + BitVec.ofNat 32 k).isLt

@[simp] theorem byteAddress_zero (a : Word) : byteAddress a 0 = a.toNat := by simp [byteAddress]

/-- A word write keeps the canonical form. -/
theorem wf_writeWord (m : Memory) (o : ByteOrder) (a v : Word) (h : m.wf = true) :
    (m.writeWord o a v).wf = true := by
  unfold Memory.writeWord
  exact wf_writeByte _ _ _ (byteAddress_lt a 3) (wf_writeByte _ _ _ (byteAddress_lt a 2)
    (wf_writeByte _ _ _ (byteAddress_lt a 1) (wf_writeByte _ _ _ (byteAddress_lt a 0) h)))

/-- The four locations of a word are different. -/
theorem byteAddress_inj (a : Word) {j k : Nat} (hj : j < 4) (hk : k < 4) (h : byteAddress a j = byteAddress a k) :
    j = k := by
  simp only [byteAddress, BitVec.toNat_add, BitVec.toNat_ofNat] at h
  omega

/-- What a byte reads as after a word write: the word's byte at its four locations, the old answer elsewhere. -/
theorem readByte_writeWord (m : Memory) (o : ByteOrder) (a v : Word) (b : Nat) :
    (m.writeWord o a v).readByte b =
      if b = byteAddress a 3 then some (byteOfWord o v 3)
      else if b = byteAddress a 2 then some (byteOfWord o v 2)
      else if b = byteAddress a 1 then some (byteOfWord o v 1)
      else if b = byteAddress a 0 then some (byteOfWord o v 0)
      else m.readByte b := by
  simp only [Memory.writeWord, readByte_writeByte]

/-- A byte outside the four locations of the written word is left alone. -/
theorem readByte_writeWord_of_ne (m : Memory) (o : ByteOrder) (a v : Word) (b : Nat)
    (h : ∀ k < 4, b ≠ byteAddress a k) : (m.writeWord o a v).readByte b = m.readByte b := by
  rw [readByte_writeWord, if_neg (h 3 (by omega)), if_neg (h 2 (by omega)), if_neg (h 1 (by omega)),
    if_neg (h 0 (by omega))]

/-- Every byte of the written word reads as that byte. -/
theorem readByte_writeWord_at (m : Memory) (o : ByteOrder) (a v : Word) {k : Nat} (hk : k < 4) :
    (m.writeWord o a v).readByte (byteAddress a k) = some (byteOfWord o v k) := by
  have ne : ∀ j < 4, j ≠ k → byteAddress a k ≠ byteAddress a j :=
    fun j hj hne h => hne (byteAddress_inj a hj hk h.symm)
  rw [readByte_writeWord]
  rcases (by omega : k = 0 ∨ k = 1 ∨ k = 2 ∨ k = 3) with rfl | rfl | rfl | rfl
  · rw [if_neg (ne 3 (by omega) (by omega)), if_neg (ne 2 (by omega) (by omega)),
      if_neg (ne 1 (by omega) (by omega)), if_pos rfl]
  · rw [if_neg (ne 3 (by omega) (by omega)), if_neg (ne 2 (by omega) (by omega)), if_pos rfl]
  · rw [if_neg (ne 3 (by omega) (by omega)), if_pos rfl]
  · rw [if_pos rfl]

/-- The four bytes of a word, in either order, make up the word (R44). -/
theorem wordOfBytes_byteOfWord (o : ByteOrder) (v : Word) :
    wordOfBytes o (byteOfWord o v 0) (byteOfWord o v 1) (byteOfWord o v 2) (byteOfWord o v 3) = v := by
  apply BitVec.eq_of_getLsbD_eq
  intro i hi
  cases o <;> simp only [wordOfBytes, byteOfWord, BitVec.getLsbD_append, BitVec.getLsbD_extractLsb'] <;>
    (interval_cases i <;> simp)

/-- Each byte of a word is the byte it was made of (R44). -/
theorem byteOfWord_wordOfBytes (o : ByteOrder) (b0 b1 b2 b3 : Byte) :
    byteOfWord o (wordOfBytes o b0 b1 b2 b3) 0 = b0 ∧ byteOfWord o (wordOfBytes o b0 b1 b2 b3) 1 = b1 ∧
      byteOfWord o (wordOfBytes o b0 b1 b2 b3) 2 = b2 ∧ byteOfWord o (wordOfBytes o b0 b1 b2 b3) 3 = b3 := by
  refine ⟨?_, ?_, ?_, ?_⟩ <;>
  · apply BitVec.eq_of_getLsbD_eq
    intro i hi
    cases o <;> simp only [wordOfBytes, byteOfWord, BitVec.getLsbD_append, BitVec.getLsbD_extractLsb'] <;>
      (interval_cases i <;> simp)

/-- A word read after the same word was written gives it back, whatever the draw (R44, R45). -/
theorem readWord_writeWord (m : Memory) (o : ByteOrder) (a v draw : Word) :
    (m.writeWord o a v).readWord o a draw = v := by
  simp only [Memory.readWord, Memory.byteOr, readByte_writeWord_at _ _ _ _ (by omega : 0 < 4),
    readByte_writeWord_at _ _ _ _ (by omega : 1 < 4), readByte_writeWord_at _ _ _ _ (by omega : 2 < 4),
    readByte_writeWord_at _ _ _ _ (by omega : 3 < 4), Option.getD_some, wordOfBytes_byteOfWord]

/-- A word all of whose bytes are written reads as those bytes, whatever the draw. -/
theorem readWord_of_written (m : Memory) (o : ByteOrder) (a draw : Word) (b0 b1 b2 b3 : Byte)
    (h0 : m.readByte (byteAddress a 0) = some b0) (h1 : m.readByte (byteAddress a 1) = some b1)
    (h2 : m.readByte (byteAddress a 2) = some b2) (h3 : m.readByte (byteAddress a 3) = some b3) :
    m.readWord o a draw = wordOfBytes o b0 b1 b2 b3 := by
  simp [Memory.readWord, Memory.byteOr, h0, h1, h2, h3, -byteAddress_zero]

/-- Every entry after a byte write was there before, or is the written one. -/
theorem mem_writeByte (m : Memory) (a : Nat) (v : Byte) (c : Host.Cell) (h : c ∈ m.writeByte a v) :
    c = (a, v) ∨ c ∈ m := by
  induction m with
  | nil => simpa [Memory.writeByte] using h
  | cons d m ih =>
    obtain ⟨k, u⟩ := d
    simp only [Memory.writeByte] at h
    split at h
    · simpa using h
    · split at h
      · rcases List.mem_cons.1 h with h | h
        · exact .inl h
        · exact .inr (List.mem_cons_of_mem _ h)
      · rcases List.mem_cons.1 h with h | h
        · exact .inr (h ▸ List.mem_cons_self ..)
        · exact (ih h).imp id (List.mem_cons_of_mem _)

/-- Every entry after a word write was there before, or stands at one of the word's four locations. -/
theorem mem_writeWord (m : Memory) (o : ByteOrder) (a v : Word) (c : Host.Cell) (h : c ∈ m.writeWord o a v) :
    (∃ k < 4, c.1 = byteAddress a k) ∨ c ∈ m := by
  unfold Memory.writeWord at h
  rcases mem_writeByte _ _ _ _ h with h | h
  · exact .inl ⟨3, by omega, by rw [h]⟩
  rcases mem_writeByte _ _ _ _ h with h | h
  · exact .inl ⟨2, by omega, by rw [h]⟩
  rcases mem_writeByte _ _ _ _ h with h | h
  · exact .inl ⟨1, by omega, by rw [h]⟩
  rcases mem_writeByte _ _ _ _ h with h | h
  · exact .inl ⟨0, by omega, by rw [h]⟩
  · exact .inr h

end Sys2Proof.Machine
end

