-- ==== Sys2Proof/Laws/Numerics.lean ====
section
/-! SUPPORT. Sys2Proof/Laws/Numerics.lean: for each function of the record `FP`, once, everything it can answer, and when
an operation is invalid in the words of Safety.lean. -/

namespace Sys2Proof.Machine

/-! ## When an operation is invalid (R169) -/

theorem fpAddInvalid_iff {a b : Word} : fpAddInvalid a b = true ↔ InvalidAdd a b := by
  simp [fpAddInvalid, InvalidAdd, or_assoc, and_assoc]

theorem fpSubInvalid_iff {a b : Word} : fpSubInvalid a b = true ↔ InvalidSub a b := by
  simp [fpSubInvalid, InvalidSub, or_assoc, and_assoc]

theorem fpMulInvalid_iff {a b : Word} : fpMulInvalid a b = true ↔ InvalidMul a b := by
  simp [fpMulInvalid, InvalidMul, or_assoc]

theorem fpDivInvalid_iff {a b : Word} : fpDivInvalid a b = true ↔ InvalidDiv a b := by
  simp [fpDivInvalid, InvalidDiv, or_assoc]

theorem fpCvtWSInvalid_iff {a : Word} : fpCvtWSInvalid a = true ↔ InvalidCvtWS a := by
  simp only [fpCvtWSInvalid, InvalidCvtWS, Bool.or_eq_true, decide_eq_true_eq, or_assoc]
  have h : 0x7FFFFFFF < fpNearestInt a ↔ 2 ^ 31 ≤ fpNearestInt a := by omega
  rw [h]; norm_num

/-! ## The record of the run (R168, R169): the draw for an invalid operation, else the record's own function -/

theorem fpAdd_eq (r : FpRecord) (a b d : Word) :
    fpAdd r a b d = if fpAddInvalid a b then fpNaN d
      else if r = .ieeeRne then ieeeAdd a b d else Config.platformAdd a b := by
  cases r <;> simp +contextual [fpAdd, ieeeAdd]

theorem fpSub_eq (r : FpRecord) (a b d : Word) :
    fpSub r a b d = if fpSubInvalid a b then fpNaN d
      else if r = .ieeeRne then ieeeSub a b d else Config.platformSub a b := by
  cases r <;> simp +contextual [fpSub, ieeeSub]

theorem fpMul_eq (r : FpRecord) (a b d : Word) :
    fpMul r a b d = if fpMulInvalid a b then fpNaN d
      else if r = .ieeeRne then ieeeMul a b d else Config.platformMul a b := by
  cases r <;> simp +contextual [fpMul, ieeeMul]

theorem fpDiv_eq (r : FpRecord) (a b d : Word) :
    fpDiv r a b d = if fpDivInvalid a b then fpNaN d
      else if r = .ieeeRne then ieeeDiv a b d else Config.platformDiv a b := by
  cases r <;> simp +contextual [fpDiv, ieeeDiv]

theorem fpCvtWS_eq (r : FpRecord) (a d : Word) :
    fpCvtWS r a d = if fpCvtWSInvalid a then d
      else if r = .ieeeRne then ieeeCvtWS a d else Config.platformCvtWS a := by
  cases r <;> simp +contextual [fpCvtWS, ieeeCvtWS]

end Sys2Proof.Machine
end

