-- ==== Sys2Proof/Laws/State.lean ====
section
/-! SUPPORT. Sys2Proof/Laws/State.lean: one lemma per field per update of the state, and one per accessor an update leaves
alone, so that no proof unfolds a record update. -/

namespace Sys2Proof.Machine

/-! ## writeFReg -/

@[simp] theorem writeFReg_cfg (s : State) (d : FReg) (v : Word) : (s.writeFReg d v).cfg = s.cfg := rfl
@[simp] theorem writeFReg_regs (s : State) (d : FReg) (v : Word) : (s.writeFReg d v).regs = s.regs := rfl
@[simp] theorem writeFReg_pc (s : State) (d : FReg) (v : Word) : (s.writeFReg d v).pc = s.pc := rfl
@[simp] theorem writeFReg_hi (s : State) (d : FReg) (v : Word) : (s.writeFReg d v).hi = s.hi := rfl
@[simp] theorem writeFReg_lo (s : State) (d : FReg) (v : Word) : (s.writeFReg d v).lo = s.lo := rfl
@[simp] theorem writeFReg_fregs (s : State) (d : FReg) (v : Word) : (s.writeFReg d v).fregs = s.fregs.set d.toNat v := rfl
@[simp] theorem writeFReg_status (s : State) (d : FReg) (v : Word) : (s.writeFReg d v).status = s.status := rfl
@[simp] theorem writeFReg_cause (s : State) (d : FReg) (v : Word) : (s.writeFReg d v).cause = s.cause := rfl
@[simp] theorem writeFReg_epc (s : State) (d : FReg) (v : Word) : (s.writeFReg d v).epc = s.epc := rfl
@[simp] theorem writeFReg_badVAddr (s : State) (d : FReg) (v : Word) : (s.writeFReg d v).badVAddr = s.badVAddr := rfl
@[simp] theorem writeFReg_mem (s : State) (d : FReg) (v : Word) : (s.writeFReg d v).mem = s.mem := rfl
@[simp] theorem writeFReg_irq (s : State) (d : FReg) (v : Word) : (s.writeFReg d v).irq = s.irq := rfl
@[simp] theorem writeFReg_irqIn (s : State) (d : FReg) (v : Word) : (s.writeFReg d v).irqIn = s.irqIn := rfl
@[simp] theorem writeFReg_draws (s : State) (d : FReg) (v : Word) : (s.writeFReg d v).draws = s.draws := rfl
@[simp] theorem writeFReg_hardwired (s : State) (d : FReg) (v : Word) (r : GReg) : (s.writeFReg d v).hardwired r = s.hardwired r := rfl
@[simp] theorem writeFReg_readReg (s : State) (d : FReg) (v : Word) (r : GReg) : (s.writeFReg d v).readReg r = s.readReg r := rfl
@[simp] theorem writeFReg_mode (s : State) (d : FReg) (v : Word) : (s.writeFReg d v).mode = s.mode := rfl
@[simp] theorem writeFReg_interruptEnable (s : State) (d : FReg) (v : Word) : (s.writeFReg d v).interruptEnable = s.interruptEnable := rfl
@[simp] theorem writeFReg_interruptMask (s : State) (d : FReg) (v : Word) : (s.writeFReg d v).interruptMask = s.interruptMask := rfl
@[simp] theorem writeFReg_interruptPending (s : State) (d : FReg) (v : Word) : (s.writeFReg d v).interruptPending = s.interruptPending := rfl
@[simp] theorem writeFReg_interruptDue (s : State) (d : FReg) (v : Word) : (s.writeFReg d v).interruptDue = s.interruptDue := rfl
@[simp] theorem writeFReg_cu0 (s : State) (d : FReg) (v : Word) : (s.writeFReg d v).cu0 = s.cu0 := rfl
@[simp] theorem writeFReg_cu1 (s : State) (d : FReg) (v : Word) : (s.writeFReg d v).cu1 = s.cu1 := rfl
@[simp] theorem writeFReg_cp0Usable (s : State) (d : FReg) (v : Word) : (s.writeFReg d v).cp0Usable = s.cp0Usable := rfl

/-! ## setHiLo -/

@[simp] theorem setHiLo_cfg (s : State) (x y : Word) : (s.setHiLo x y).cfg = s.cfg := rfl
@[simp] theorem setHiLo_regs (s : State) (x y : Word) : (s.setHiLo x y).regs = s.regs := rfl
@[simp] theorem setHiLo_pc (s : State) (x y : Word) : (s.setHiLo x y).pc = s.pc := rfl
@[simp] theorem setHiLo_hi (s : State) (x y : Word) : (s.setHiLo x y).hi = x := rfl
@[simp] theorem setHiLo_lo (s : State) (x y : Word) : (s.setHiLo x y).lo = y := rfl
@[simp] theorem setHiLo_fregs (s : State) (x y : Word) : (s.setHiLo x y).fregs = s.fregs := rfl
@[simp] theorem setHiLo_status (s : State) (x y : Word) : (s.setHiLo x y).status = s.status := rfl
@[simp] theorem setHiLo_cause (s : State) (x y : Word) : (s.setHiLo x y).cause = s.cause := rfl
@[simp] theorem setHiLo_epc (s : State) (x y : Word) : (s.setHiLo x y).epc = s.epc := rfl
@[simp] theorem setHiLo_badVAddr (s : State) (x y : Word) : (s.setHiLo x y).badVAddr = s.badVAddr := rfl
@[simp] theorem setHiLo_mem (s : State) (x y : Word) : (s.setHiLo x y).mem = s.mem := rfl
@[simp] theorem setHiLo_irq (s : State) (x y : Word) : (s.setHiLo x y).irq = s.irq := rfl
@[simp] theorem setHiLo_irqIn (s : State) (x y : Word) : (s.setHiLo x y).irqIn = s.irqIn := rfl
@[simp] theorem setHiLo_draws (s : State) (x y : Word) : (s.setHiLo x y).draws = s.draws := rfl
@[simp] theorem setHiLo_hardwired (s : State) (x y : Word) (r : GReg) : (s.setHiLo x y).hardwired r = s.hardwired r := rfl
@[simp] theorem setHiLo_readReg (s : State) (x y : Word) (r : GReg) : (s.setHiLo x y).readReg r = s.readReg r := rfl
@[simp] theorem setHiLo_readFReg (s : State) (x y : Word) (f : FReg) : (s.setHiLo x y).readFReg f = s.readFReg f := rfl
@[simp] theorem setHiLo_mode (s : State) (x y : Word) : (s.setHiLo x y).mode = s.mode := rfl
@[simp] theorem setHiLo_interruptEnable (s : State) (x y : Word) : (s.setHiLo x y).interruptEnable = s.interruptEnable := rfl
@[simp] theorem setHiLo_interruptMask (s : State) (x y : Word) : (s.setHiLo x y).interruptMask = s.interruptMask := rfl
@[simp] theorem setHiLo_interruptPending (s : State) (x y : Word) : (s.setHiLo x y).interruptPending = s.interruptPending := rfl
@[simp] theorem setHiLo_interruptDue (s : State) (x y : Word) : (s.setHiLo x y).interruptDue = s.interruptDue := rfl
@[simp] theorem setHiLo_cu0 (s : State) (x y : Word) : (s.setHiLo x y).cu0 = s.cu0 := rfl
@[simp] theorem setHiLo_cu1 (s : State) (x y : Word) : (s.setHiLo x y).cu1 = s.cu1 := rfl
@[simp] theorem setHiLo_cp0Usable (s : State) (x y : Word) : (s.setHiLo x y).cp0Usable = s.cp0Usable := rfl

/-! ## setPc -/

@[simp] theorem setPc_cfg (s : State) (a : Word) : (s.setPc a).cfg = s.cfg := rfl
@[simp] theorem setPc_regs (s : State) (a : Word) : (s.setPc a).regs = s.regs := rfl
@[simp] theorem setPc_pc (s : State) (a : Word) : (s.setPc a).pc = a := rfl
@[simp] theorem setPc_hi (s : State) (a : Word) : (s.setPc a).hi = s.hi := rfl
@[simp] theorem setPc_lo (s : State) (a : Word) : (s.setPc a).lo = s.lo := rfl
@[simp] theorem setPc_fregs (s : State) (a : Word) : (s.setPc a).fregs = s.fregs := rfl
@[simp] theorem setPc_status (s : State) (a : Word) : (s.setPc a).status = s.status := rfl
@[simp] theorem setPc_cause (s : State) (a : Word) : (s.setPc a).cause = s.cause := rfl
@[simp] theorem setPc_epc (s : State) (a : Word) : (s.setPc a).epc = s.epc := rfl
@[simp] theorem setPc_badVAddr (s : State) (a : Word) : (s.setPc a).badVAddr = s.badVAddr := rfl
@[simp] theorem setPc_mem (s : State) (a : Word) : (s.setPc a).mem = s.mem := rfl
@[simp] theorem setPc_irq (s : State) (a : Word) : (s.setPc a).irq = s.irq := rfl
@[simp] theorem setPc_irqIn (s : State) (a : Word) : (s.setPc a).irqIn = s.irqIn := rfl
@[simp] theorem setPc_draws (s : State) (a : Word) : (s.setPc a).draws = s.draws := rfl
@[simp] theorem setPc_hardwired (s : State) (a : Word) (r : GReg) : (s.setPc a).hardwired r = s.hardwired r := rfl
@[simp] theorem setPc_readReg (s : State) (a : Word) (r : GReg) : (s.setPc a).readReg r = s.readReg r := rfl
@[simp] theorem setPc_readFReg (s : State) (a : Word) (f : FReg) : (s.setPc a).readFReg f = s.readFReg f := rfl
@[simp] theorem setPc_mode (s : State) (a : Word) : (s.setPc a).mode = s.mode := rfl
@[simp] theorem setPc_interruptEnable (s : State) (a : Word) : (s.setPc a).interruptEnable = s.interruptEnable := rfl
@[simp] theorem setPc_interruptMask (s : State) (a : Word) : (s.setPc a).interruptMask = s.interruptMask := rfl
@[simp] theorem setPc_interruptPending (s : State) (a : Word) : (s.setPc a).interruptPending = s.interruptPending := rfl
@[simp] theorem setPc_interruptDue (s : State) (a : Word) : (s.setPc a).interruptDue = s.interruptDue := rfl
@[simp] theorem setPc_cu0 (s : State) (a : Word) : (s.setPc a).cu0 = s.cu0 := rfl
@[simp] theorem setPc_cu1 (s : State) (a : Word) : (s.setPc a).cu1 = s.cu1 := rfl
@[simp] theorem setPc_cp0Usable (s : State) (a : Word) : (s.setPc a).cp0Usable = s.cp0Usable := rfl

/-! ## advance -/

@[simp] theorem advance_cfg (s : State) : s.advance.cfg = s.cfg := rfl
@[simp] theorem advance_regs (s : State) : s.advance.regs = s.regs := rfl
@[simp] theorem advance_pc (s : State) : s.advance.pc = s.pc + 4 := rfl
@[simp] theorem advance_hi (s : State) : s.advance.hi = s.hi := rfl
@[simp] theorem advance_lo (s : State) : s.advance.lo = s.lo := rfl
@[simp] theorem advance_fregs (s : State) : s.advance.fregs = s.fregs := rfl
@[simp] theorem advance_status (s : State) : s.advance.status = s.status := rfl
@[simp] theorem advance_cause (s : State) : s.advance.cause = s.cause := rfl
@[simp] theorem advance_epc (s : State) : s.advance.epc = s.epc := rfl
@[simp] theorem advance_badVAddr (s : State) : s.advance.badVAddr = s.badVAddr := rfl
@[simp] theorem advance_mem (s : State) : s.advance.mem = s.mem := rfl
@[simp] theorem advance_irq (s : State) : s.advance.irq = s.irq := rfl
@[simp] theorem advance_irqIn (s : State) : s.advance.irqIn = s.irqIn := rfl
@[simp] theorem advance_draws (s : State) : s.advance.draws = s.draws := rfl
@[simp] theorem advance_hardwired (s : State) (r : GReg) : s.advance.hardwired r = s.hardwired r := rfl
@[simp] theorem advance_readReg (s : State) (r : GReg) : s.advance.readReg r = s.readReg r := rfl
@[simp] theorem advance_readFReg (s : State) (f : FReg) : s.advance.readFReg f = s.readFReg f := rfl
@[simp] theorem advance_mode (s : State) : s.advance.mode = s.mode := rfl
@[simp] theorem advance_interruptEnable (s : State) : s.advance.interruptEnable = s.interruptEnable := rfl
@[simp] theorem advance_interruptMask (s : State) : s.advance.interruptMask = s.interruptMask := rfl
@[simp] theorem advance_interruptPending (s : State) : s.advance.interruptPending = s.interruptPending := rfl
@[simp] theorem advance_interruptDue (s : State) : s.advance.interruptDue = s.interruptDue := rfl
@[simp] theorem advance_cu0 (s : State) : s.advance.cu0 = s.cu0 := rfl
@[simp] theorem advance_cu1 (s : State) : s.advance.cu1 = s.cu1 := rfl
@[simp] theorem advance_cp0Usable (s : State) : s.advance.cp0Usable = s.cp0Usable := rfl

/-! ## storeByte -/

@[simp] theorem storeByte_cfg (s : State) (a : Word) (b : Byte) : (s.storeByte a b).cfg = s.cfg := rfl
@[simp] theorem storeByte_regs (s : State) (a : Word) (b : Byte) : (s.storeByte a b).regs = s.regs := rfl
@[simp] theorem storeByte_pc (s : State) (a : Word) (b : Byte) : (s.storeByte a b).pc = s.pc := rfl
@[simp] theorem storeByte_hi (s : State) (a : Word) (b : Byte) : (s.storeByte a b).hi = s.hi := rfl
@[simp] theorem storeByte_lo (s : State) (a : Word) (b : Byte) : (s.storeByte a b).lo = s.lo := rfl
@[simp] theorem storeByte_fregs (s : State) (a : Word) (b : Byte) : (s.storeByte a b).fregs = s.fregs := rfl
@[simp] theorem storeByte_status (s : State) (a : Word) (b : Byte) : (s.storeByte a b).status = s.status := rfl
@[simp] theorem storeByte_cause (s : State) (a : Word) (b : Byte) : (s.storeByte a b).cause = s.cause := rfl
@[simp] theorem storeByte_epc (s : State) (a : Word) (b : Byte) : (s.storeByte a b).epc = s.epc := rfl
@[simp] theorem storeByte_badVAddr (s : State) (a : Word) (b : Byte) : (s.storeByte a b).badVAddr = s.badVAddr := rfl
@[simp] theorem storeByte_mem (s : State) (a : Word) (b : Byte) : (s.storeByte a b).mem = s.mem.writeByte (byteAddress a 0) b := rfl
@[simp] theorem storeByte_irq (s : State) (a : Word) (b : Byte) : (s.storeByte a b).irq = s.irq := rfl
@[simp] theorem storeByte_irqIn (s : State) (a : Word) (b : Byte) : (s.storeByte a b).irqIn = s.irqIn := rfl
@[simp] theorem storeByte_draws (s : State) (a : Word) (b : Byte) : (s.storeByte a b).draws = s.draws := rfl
@[simp] theorem storeByte_hardwired (s : State) (a : Word) (b : Byte) (r : GReg) : (s.storeByte a b).hardwired r = s.hardwired r := rfl
@[simp] theorem storeByte_readReg (s : State) (a : Word) (b : Byte) (r : GReg) : (s.storeByte a b).readReg r = s.readReg r := rfl
@[simp] theorem storeByte_readFReg (s : State) (a : Word) (b : Byte) (f : FReg) : (s.storeByte a b).readFReg f = s.readFReg f := rfl
@[simp] theorem storeByte_mode (s : State) (a : Word) (b : Byte) : (s.storeByte a b).mode = s.mode := rfl
@[simp] theorem storeByte_interruptEnable (s : State) (a : Word) (b : Byte) : (s.storeByte a b).interruptEnable = s.interruptEnable := rfl
@[simp] theorem storeByte_interruptMask (s : State) (a : Word) (b : Byte) : (s.storeByte a b).interruptMask = s.interruptMask := rfl
@[simp] theorem storeByte_interruptPending (s : State) (a : Word) (b : Byte) : (s.storeByte a b).interruptPending = s.interruptPending := rfl
@[simp] theorem storeByte_interruptDue (s : State) (a : Word) (b : Byte) : (s.storeByte a b).interruptDue = s.interruptDue := rfl
@[simp] theorem storeByte_cu0 (s : State) (a : Word) (b : Byte) : (s.storeByte a b).cu0 = s.cu0 := rfl
@[simp] theorem storeByte_cu1 (s : State) (a : Word) (b : Byte) : (s.storeByte a b).cu1 = s.cu1 := rfl
@[simp] theorem storeByte_cp0Usable (s : State) (a : Word) (b : Byte) : (s.storeByte a b).cp0Usable = s.cp0Usable := rfl

/-! ## storeWord -/

@[simp] theorem storeWord_cfg (s : State) (a v : Word) : (s.storeWord a v).cfg = s.cfg := rfl
@[simp] theorem storeWord_regs (s : State) (a v : Word) : (s.storeWord a v).regs = s.regs := rfl
@[simp] theorem storeWord_pc (s : State) (a v : Word) : (s.storeWord a v).pc = s.pc := rfl
@[simp] theorem storeWord_hi (s : State) (a v : Word) : (s.storeWord a v).hi = s.hi := rfl
@[simp] theorem storeWord_lo (s : State) (a v : Word) : (s.storeWord a v).lo = s.lo := rfl
@[simp] theorem storeWord_fregs (s : State) (a v : Word) : (s.storeWord a v).fregs = s.fregs := rfl
@[simp] theorem storeWord_status (s : State) (a v : Word) : (s.storeWord a v).status = s.status := rfl
@[simp] theorem storeWord_cause (s : State) (a v : Word) : (s.storeWord a v).cause = s.cause := rfl
@[simp] theorem storeWord_epc (s : State) (a v : Word) : (s.storeWord a v).epc = s.epc := rfl
@[simp] theorem storeWord_badVAddr (s : State) (a v : Word) : (s.storeWord a v).badVAddr = s.badVAddr := rfl
@[simp] theorem storeWord_mem (s : State) (a v : Word) : (s.storeWord a v).mem = s.mem.writeWord s.cfg.byteOrder a v := rfl
@[simp] theorem storeWord_irq (s : State) (a v : Word) : (s.storeWord a v).irq = s.irq := rfl
@[simp] theorem storeWord_irqIn (s : State) (a v : Word) : (s.storeWord a v).irqIn = s.irqIn := rfl
@[simp] theorem storeWord_draws (s : State) (a v : Word) : (s.storeWord a v).draws = s.draws := rfl
@[simp] theorem storeWord_hardwired (s : State) (a v : Word) (r : GReg) : (s.storeWord a v).hardwired r = s.hardwired r := rfl
@[simp] theorem storeWord_readReg (s : State) (a v : Word) (r : GReg) : (s.storeWord a v).readReg r = s.readReg r := rfl
@[simp] theorem storeWord_readFReg (s : State) (a v : Word) (f : FReg) : (s.storeWord a v).readFReg f = s.readFReg f := rfl
@[simp] theorem storeWord_mode (s : State) (a v : Word) : (s.storeWord a v).mode = s.mode := rfl
@[simp] theorem storeWord_interruptEnable (s : State) (a v : Word) : (s.storeWord a v).interruptEnable = s.interruptEnable := rfl
@[simp] theorem storeWord_interruptMask (s : State) (a v : Word) : (s.storeWord a v).interruptMask = s.interruptMask := rfl
@[simp] theorem storeWord_interruptPending (s : State) (a v : Word) : (s.storeWord a v).interruptPending = s.interruptPending := rfl
@[simp] theorem storeWord_interruptDue (s : State) (a v : Word) : (s.storeWord a v).interruptDue = s.interruptDue := rfl
@[simp] theorem storeWord_cu0 (s : State) (a v : Word) : (s.storeWord a v).cu0 = s.cu0 := rfl
@[simp] theorem storeWord_cu1 (s : State) (a v : Word) : (s.storeWord a v).cu1 = s.cu1 := rfl
@[simp] theorem storeWord_cp0Usable (s : State) (a v : Word) : (s.storeWord a v).cp0Usable = s.cp0Usable := rfl

/-! ## skipDraws -/

@[simp] theorem skipDraws_cfg (s : State) (n : Nat) : (s.skipDraws n).cfg = s.cfg := rfl
@[simp] theorem skipDraws_regs (s : State) (n : Nat) : (s.skipDraws n).regs = s.regs := rfl
@[simp] theorem skipDraws_pc (s : State) (n : Nat) : (s.skipDraws n).pc = s.pc := rfl
@[simp] theorem skipDraws_hi (s : State) (n : Nat) : (s.skipDraws n).hi = s.hi := rfl
@[simp] theorem skipDraws_lo (s : State) (n : Nat) : (s.skipDraws n).lo = s.lo := rfl
@[simp] theorem skipDraws_fregs (s : State) (n : Nat) : (s.skipDraws n).fregs = s.fregs := rfl
@[simp] theorem skipDraws_status (s : State) (n : Nat) : (s.skipDraws n).status = s.status := rfl
@[simp] theorem skipDraws_cause (s : State) (n : Nat) : (s.skipDraws n).cause = s.cause := rfl
@[simp] theorem skipDraws_epc (s : State) (n : Nat) : (s.skipDraws n).epc = s.epc := rfl
@[simp] theorem skipDraws_badVAddr (s : State) (n : Nat) : (s.skipDraws n).badVAddr = s.badVAddr := rfl
@[simp] theorem skipDraws_mem (s : State) (n : Nat) : (s.skipDraws n).mem = s.mem := rfl
@[simp] theorem skipDraws_irq (s : State) (n : Nat) : (s.skipDraws n).irq = s.irq := rfl
@[simp] theorem skipDraws_irqIn (s : State) (n : Nat) : (s.skipDraws n).irqIn = s.irqIn := rfl
@[simp] theorem skipDraws_draws (s : State) (n : Nat) : (s.skipDraws n).draws = s.draws + n := rfl
@[simp] theorem skipDraws_hardwired (s : State) (n : Nat) (r : GReg) : (s.skipDraws n).hardwired r = s.hardwired r := rfl
@[simp] theorem skipDraws_readReg (s : State) (n : Nat) (r : GReg) : (s.skipDraws n).readReg r = s.readReg r := rfl
@[simp] theorem skipDraws_readFReg (s : State) (n : Nat) (f : FReg) : (s.skipDraws n).readFReg f = s.readFReg f := rfl
@[simp] theorem skipDraws_mode (s : State) (n : Nat) : (s.skipDraws n).mode = s.mode := rfl
@[simp] theorem skipDraws_interruptEnable (s : State) (n : Nat) : (s.skipDraws n).interruptEnable = s.interruptEnable := rfl
@[simp] theorem skipDraws_interruptMask (s : State) (n : Nat) : (s.skipDraws n).interruptMask = s.interruptMask := rfl
@[simp] theorem skipDraws_interruptPending (s : State) (n : Nat) : (s.skipDraws n).interruptPending = s.interruptPending := rfl
@[simp] theorem skipDraws_interruptDue (s : State) (n : Nat) : (s.skipDraws n).interruptDue = s.interruptDue := rfl
@[simp] theorem skipDraws_cu0 (s : State) (n : Nat) : (s.skipDraws n).cu0 = s.cu0 := rfl
@[simp] theorem skipDraws_cu1 (s : State) (n : Nat) : (s.skipDraws n).cu1 = s.cu1 := rfl
@[simp] theorem skipDraws_cp0Usable (s : State) (n : Nat) : (s.skipDraws n).cp0Usable = s.cp0Usable := rfl

/-! ## trapReturn -/

@[simp] theorem trapReturn_cfg (s : State) : s.trapReturn.cfg = s.cfg := rfl
@[simp] theorem trapReturn_regs (s : State) : s.trapReturn.regs = s.regs := rfl
@[simp] theorem trapReturn_pc (s : State) : s.trapReturn.pc = s.pc := rfl
@[simp] theorem trapReturn_hi (s : State) : s.trapReturn.hi = s.hi := rfl
@[simp] theorem trapReturn_lo (s : State) : s.trapReturn.lo = s.lo := rfl
@[simp] theorem trapReturn_fregs (s : State) : s.trapReturn.fregs = s.fregs := rfl
@[simp] theorem trapReturn_status (s : State) : s.trapReturn.status = popStatus s.status := rfl
@[simp] theorem trapReturn_cause (s : State) : s.trapReturn.cause = s.cause := rfl
@[simp] theorem trapReturn_epc (s : State) : s.trapReturn.epc = s.epc := rfl
@[simp] theorem trapReturn_badVAddr (s : State) : s.trapReturn.badVAddr = s.badVAddr := rfl
@[simp] theorem trapReturn_mem (s : State) : s.trapReturn.mem = s.mem := rfl
@[simp] theorem trapReturn_irq (s : State) : s.trapReturn.irq = s.irq := rfl
@[simp] theorem trapReturn_irqIn (s : State) : s.trapReturn.irqIn = s.irqIn := rfl
@[simp] theorem trapReturn_draws (s : State) : s.trapReturn.draws = s.draws := rfl
@[simp] theorem trapReturn_hardwired (s : State) (r : GReg) : s.trapReturn.hardwired r = s.hardwired r := rfl
@[simp] theorem trapReturn_readReg (s : State) (r : GReg) : s.trapReturn.readReg r = s.readReg r := rfl
@[simp] theorem trapReturn_readFReg (s : State) (f : FReg) : s.trapReturn.readFReg f = s.readFReg f := rfl
@[simp] theorem trapReturn_interruptPending (s : State) : s.trapReturn.interruptPending = s.interruptPending := rfl

/-! ## writeStatus -/

@[simp] theorem writeStatus_cfg (s : State) (v : Word) : (s.writeStatus v).cfg = s.cfg := rfl
@[simp] theorem writeStatus_regs (s : State) (v : Word) : (s.writeStatus v).regs = s.regs := rfl
@[simp] theorem writeStatus_pc (s : State) (v : Word) : (s.writeStatus v).pc = s.pc := rfl
@[simp] theorem writeStatus_hi (s : State) (v : Word) : (s.writeStatus v).hi = s.hi := rfl
@[simp] theorem writeStatus_lo (s : State) (v : Word) : (s.writeStatus v).lo = s.lo := rfl
@[simp] theorem writeStatus_fregs (s : State) (v : Word) : (s.writeStatus v).fregs = s.fregs := rfl
@[simp] theorem writeStatus_status (s : State) (v : Word) : (s.writeStatus v).status = v := rfl
@[simp] theorem writeStatus_cause (s : State) (v : Word) : (s.writeStatus v).cause = s.cause := rfl
@[simp] theorem writeStatus_epc (s : State) (v : Word) : (s.writeStatus v).epc = s.epc := rfl
@[simp] theorem writeStatus_badVAddr (s : State) (v : Word) : (s.writeStatus v).badVAddr = s.badVAddr := rfl
@[simp] theorem writeStatus_mem (s : State) (v : Word) : (s.writeStatus v).mem = s.mem := rfl
@[simp] theorem writeStatus_irq (s : State) (v : Word) : (s.writeStatus v).irq = s.irq := rfl
@[simp] theorem writeStatus_irqIn (s : State) (v : Word) : (s.writeStatus v).irqIn = s.irqIn := rfl
@[simp] theorem writeStatus_draws (s : State) (v : Word) : (s.writeStatus v).draws = s.draws := rfl
@[simp] theorem writeStatus_hardwired (s : State) (v : Word) (r : GReg) : (s.writeStatus v).hardwired r = s.hardwired r := rfl
@[simp] theorem writeStatus_readReg (s : State) (v : Word) (r : GReg) : (s.writeStatus v).readReg r = s.readReg r := rfl
@[simp] theorem writeStatus_readFReg (s : State) (v : Word) (f : FReg) : (s.writeStatus v).readFReg f = s.readFReg f := rfl
@[simp] theorem writeStatus_interruptPending (s : State) (v : Word) : (s.writeStatus v).interruptPending = s.interruptPending := rfl

/-! ## writeCause -/

@[simp] theorem writeCause_cfg (s : State) (v : Word) : (s.writeCause v).cfg = s.cfg := rfl
@[simp] theorem writeCause_regs (s : State) (v : Word) : (s.writeCause v).regs = s.regs := rfl
@[simp] theorem writeCause_pc (s : State) (v : Word) : (s.writeCause v).pc = s.pc := rfl
@[simp] theorem writeCause_hi (s : State) (v : Word) : (s.writeCause v).hi = s.hi := rfl
@[simp] theorem writeCause_lo (s : State) (v : Word) : (s.writeCause v).lo = s.lo := rfl
@[simp] theorem writeCause_fregs (s : State) (v : Word) : (s.writeCause v).fregs = s.fregs := rfl
@[simp] theorem writeCause_status (s : State) (v : Word) : (s.writeCause v).status = s.status := rfl
@[simp] theorem writeCause_cause (s : State) (v : Word) : (s.writeCause v).cause = { s.cause with ip := v.extractLsb' 8 2 } := rfl
@[simp] theorem writeCause_epc (s : State) (v : Word) : (s.writeCause v).epc = s.epc := rfl
@[simp] theorem writeCause_badVAddr (s : State) (v : Word) : (s.writeCause v).badVAddr = s.badVAddr := rfl
@[simp] theorem writeCause_mem (s : State) (v : Word) : (s.writeCause v).mem = s.mem := rfl
@[simp] theorem writeCause_irq (s : State) (v : Word) : (s.writeCause v).irq = s.irq := rfl
@[simp] theorem writeCause_irqIn (s : State) (v : Word) : (s.writeCause v).irqIn = s.irqIn := rfl
@[simp] theorem writeCause_draws (s : State) (v : Word) : (s.writeCause v).draws = s.draws := rfl
@[simp] theorem writeCause_hardwired (s : State) (v : Word) (r : GReg) : (s.writeCause v).hardwired r = s.hardwired r := rfl
@[simp] theorem writeCause_readReg (s : State) (v : Word) (r : GReg) : (s.writeCause v).readReg r = s.readReg r := rfl
@[simp] theorem writeCause_readFReg (s : State) (v : Word) (f : FReg) : (s.writeCause v).readFReg f = s.readFReg f := rfl
@[simp] theorem writeCause_mode (s : State) (v : Word) : (s.writeCause v).mode = s.mode := rfl
@[simp] theorem writeCause_interruptEnable (s : State) (v : Word) : (s.writeCause v).interruptEnable = s.interruptEnable := rfl
@[simp] theorem writeCause_interruptMask (s : State) (v : Word) : (s.writeCause v).interruptMask = s.interruptMask := rfl
@[simp] theorem writeCause_cu0 (s : State) (v : Word) : (s.writeCause v).cu0 = s.cu0 := rfl
@[simp] theorem writeCause_cu1 (s : State) (v : Word) : (s.writeCause v).cu1 = s.cu1 := rfl
@[simp] theorem writeCause_cp0Usable (s : State) (v : Word) : (s.writeCause v).cp0Usable = s.cp0Usable := rfl

/-! ## beginStep -/

@[simp] theorem beginStep_cfg (s : State) : s.beginStep.cfg = s.cfg := rfl
@[simp] theorem beginStep_regs (s : State) : s.beginStep.regs = s.regs := rfl
@[simp] theorem beginStep_pc (s : State) : s.beginStep.pc = s.pc := rfl
@[simp] theorem beginStep_hi (s : State) : s.beginStep.hi = s.hi := rfl
@[simp] theorem beginStep_lo (s : State) : s.beginStep.lo = s.lo := rfl
@[simp] theorem beginStep_fregs (s : State) : s.beginStep.fregs = s.fregs := rfl
@[simp] theorem beginStep_status (s : State) : s.beginStep.status = s.status := rfl
@[simp] theorem beginStep_cause (s : State) : s.beginStep.cause = s.cause := rfl
@[simp] theorem beginStep_epc (s : State) : s.beginStep.epc = s.epc := rfl
@[simp] theorem beginStep_badVAddr (s : State) : s.beginStep.badVAddr = s.badVAddr := rfl
@[simp] theorem beginStep_mem (s : State) : s.beginStep.mem = s.mem := rfl
@[simp] theorem beginStep_irq (s : State) : s.beginStep.irq = s.irqIn.headD s.irq := rfl
@[simp] theorem beginStep_irqIn (s : State) : s.beginStep.irqIn = s.irqIn.tail := rfl
@[simp] theorem beginStep_draws (s : State) : s.beginStep.draws = s.draws + 1 := rfl
@[simp] theorem beginStep_hardwired (s : State) (r : GReg) : s.beginStep.hardwired r = s.hardwired r := rfl
@[simp] theorem beginStep_readReg (s : State) (r : GReg) : s.beginStep.readReg r = s.readReg r := rfl
@[simp] theorem beginStep_readFReg (s : State) (f : FReg) : s.beginStep.readFReg f = s.readFReg f := rfl
@[simp] theorem beginStep_mode (s : State) : s.beginStep.mode = s.mode := rfl
@[simp] theorem beginStep_interruptEnable (s : State) : s.beginStep.interruptEnable = s.interruptEnable := rfl
@[simp] theorem beginStep_interruptMask (s : State) : s.beginStep.interruptMask = s.interruptMask := rfl
@[simp] theorem beginStep_cu0 (s : State) : s.beginStep.cu0 = s.cu0 := rfl
@[simp] theorem beginStep_cu1 (s : State) : s.beginStep.cu1 = s.cu1 := rfl
@[simp] theorem beginStep_cp0Usable (s : State) : s.beginStep.cp0Usable = s.cp0Usable := rfl

/-! ## trapEntry -/

@[simp] theorem trapEntry_cfg (s : State) (e : Exception) : (trapEntry e s).cfg = s.cfg := rfl
@[simp] theorem trapEntry_regs (s : State) (e : Exception) : (trapEntry e s).regs = s.regs := rfl
@[simp] theorem trapEntry_pc (s : State) (e : Exception) : (trapEntry e s).pc = s.cfg.exceptionHandler := rfl
@[simp] theorem trapEntry_hi (s : State) (e : Exception) : (trapEntry e s).hi = s.hi := rfl
@[simp] theorem trapEntry_lo (s : State) (e : Exception) : (trapEntry e s).lo = s.lo := rfl
@[simp] theorem trapEntry_fregs (s : State) (e : Exception) : (trapEntry e s).fregs = s.fregs := rfl
@[simp] theorem trapEntry_status (s : State) (e : Exception) : (trapEntry e s).status = pushStatus s.status := rfl
@[simp] theorem trapEntry_cause (s : State) (e : Exception) : (trapEntry e s).cause = { excCode := e.code, ip := s.cause.ip, ce := e.ceField s.draw, bd := 0 } := rfl
@[simp] theorem trapEntry_epc (s : State) (e : Exception) : (trapEntry e s).epc = s.pc := rfl
@[simp] theorem trapEntry_badVAddr (s : State) (e : Exception) : (trapEntry e s).badVAddr = e.badAddress s.badVAddr := rfl
@[simp] theorem trapEntry_mem (s : State) (e : Exception) : (trapEntry e s).mem = s.mem := rfl
@[simp] theorem trapEntry_irq (s : State) (e : Exception) : (trapEntry e s).irq = s.irq := rfl
@[simp] theorem trapEntry_irqIn (s : State) (e : Exception) : (trapEntry e s).irqIn = s.irqIn := rfl
@[simp] theorem trapEntry_draws (s : State) (e : Exception) : (trapEntry e s).draws = s.draws + 1 := rfl
@[simp] theorem trapEntry_hardwired (s : State) (e : Exception) (r : GReg) : (trapEntry e s).hardwired r = s.hardwired r := rfl
@[simp] theorem trapEntry_readReg (s : State) (e : Exception) (r : GReg) : (trapEntry e s).readReg r = s.readReg r := rfl
@[simp] theorem trapEntry_readFReg (s : State) (e : Exception) (f : FReg) : (trapEntry e s).readFReg f = s.readFReg f := rfl

/-! ## writeReg -/

@[simp] theorem writeReg_cfg (s : State) (d : GReg) (v : Word) : (s.writeReg d v).cfg = s.cfg := by
  unfold State.writeReg; split <;> rfl
@[simp] theorem writeReg_pc (s : State) (d : GReg) (v : Word) : (s.writeReg d v).pc = s.pc := by
  unfold State.writeReg; split <;> rfl
@[simp] theorem writeReg_hi (s : State) (d : GReg) (v : Word) : (s.writeReg d v).hi = s.hi := by
  unfold State.writeReg; split <;> rfl
@[simp] theorem writeReg_lo (s : State) (d : GReg) (v : Word) : (s.writeReg d v).lo = s.lo := by
  unfold State.writeReg; split <;> rfl
@[simp] theorem writeReg_fregs (s : State) (d : GReg) (v : Word) : (s.writeReg d v).fregs = s.fregs := by
  unfold State.writeReg; split <;> rfl
@[simp] theorem writeReg_status (s : State) (d : GReg) (v : Word) : (s.writeReg d v).status = s.status := by
  unfold State.writeReg; split <;> rfl
@[simp] theorem writeReg_cause (s : State) (d : GReg) (v : Word) : (s.writeReg d v).cause = s.cause := by
  unfold State.writeReg; split <;> rfl
@[simp] theorem writeReg_epc (s : State) (d : GReg) (v : Word) : (s.writeReg d v).epc = s.epc := by
  unfold State.writeReg; split <;> rfl
@[simp] theorem writeReg_badVAddr (s : State) (d : GReg) (v : Word) : (s.writeReg d v).badVAddr = s.badVAddr := by
  unfold State.writeReg; split <;> rfl
@[simp] theorem writeReg_mem (s : State) (d : GReg) (v : Word) : (s.writeReg d v).mem = s.mem := by
  unfold State.writeReg; split <;> rfl
@[simp] theorem writeReg_irq (s : State) (d : GReg) (v : Word) : (s.writeReg d v).irq = s.irq := by
  unfold State.writeReg; split <;> rfl
@[simp] theorem writeReg_irqIn (s : State) (d : GReg) (v : Word) : (s.writeReg d v).irqIn = s.irqIn := by
  unfold State.writeReg; split <;> rfl
@[simp] theorem writeReg_draws (s : State) (d : GReg) (v : Word) : (s.writeReg d v).draws = s.draws := by
  unfold State.writeReg; split <;> rfl
@[simp] theorem writeReg_hardwired (s : State) (d : GReg) (v : Word) (r : GReg) : (s.writeReg d v).hardwired r = s.hardwired r := by
  unfold State.writeReg; split <;> rfl
@[simp] theorem writeReg_readFReg (s : State) (d : GReg) (v : Word) (f : FReg) : (s.writeReg d v).readFReg f = s.readFReg f := by
  unfold State.writeReg; split <;> rfl
@[simp] theorem writeReg_mode (s : State) (d : GReg) (v : Word) : (s.writeReg d v).mode = s.mode := by
  unfold State.writeReg; split <;> rfl
@[simp] theorem writeReg_interruptEnable (s : State) (d : GReg) (v : Word) : (s.writeReg d v).interruptEnable = s.interruptEnable := by
  unfold State.writeReg; split <;> rfl
@[simp] theorem writeReg_interruptMask (s : State) (d : GReg) (v : Word) : (s.writeReg d v).interruptMask = s.interruptMask := by
  unfold State.writeReg; split <;> rfl
@[simp] theorem writeReg_interruptPending (s : State) (d : GReg) (v : Word) : (s.writeReg d v).interruptPending = s.interruptPending := by
  unfold State.writeReg; split <;> rfl
@[simp] theorem writeReg_interruptDue (s : State) (d : GReg) (v : Word) : (s.writeReg d v).interruptDue = s.interruptDue := by
  unfold State.writeReg; split <;> rfl
@[simp] theorem writeReg_cu0 (s : State) (d : GReg) (v : Word) : (s.writeReg d v).cu0 = s.cu0 := by
  unfold State.writeReg; split <;> rfl
@[simp] theorem writeReg_cu1 (s : State) (d : GReg) (v : Word) : (s.writeReg d v).cu1 = s.cu1 := by
  unfold State.writeReg; split <;> rfl
@[simp] theorem writeReg_cp0Usable (s : State) (d : GReg) (v : Word) : (s.writeReg d v).cp0Usable = s.cp0Usable := by
  unfold State.writeReg; split <;> rfl

/-! ## The register files -/

/-- A write to a general register is seen by a later read of it, unless the register is hard-wired, and by no other
read (R20, R21). -/
theorem readReg_writeReg (s : State) (d r : GReg) (v : Word) :
    (s.writeReg d v).readReg r = if r = d ∧ s.hardwired d = false then v else s.readReg r := by
  by_cases hd : s.hardwired d = true
  · simp [State.writeReg, hd]
  · by_cases hr : r = d
    · subst hr
      simp [State.readReg, hd]
      simp [State.writeReg, hd]
    · have hne : d.toNat ≠ r.toNat := fun h => hr (BitVec.eq_of_toNat_eq h.symm)
      simp only [State.readReg, writeReg_hardwired, hr, false_and, if_false]
      split
      · rfl
      · simp [State.writeReg, hd, hne]

@[simp] theorem readReg_writeReg_of_ne (s : State) {d r : GReg} (v : Word) (h : r ≠ d) :
    (s.writeReg d v).readReg r = s.readReg r := by
  rw [readReg_writeReg, if_neg (fun c => h c.1)]

@[simp] theorem readReg_writeReg_self (s : State) (d : GReg) (v : Word) :
    (s.writeReg d v).readReg d = if s.hardwired d = true then 0 else v := by
  rw [readReg_writeReg]
  cases h : s.hardwired d <;> simp [State.readReg, h]

/-- A write to a floating point register is seen by a later read of it and by no other (R26). -/
theorem readFReg_writeFReg (s : State) (d r : FReg) (v : Word) :
    (s.writeFReg d v).readFReg r = if r = d then v else s.readFReg r := by
  unfold State.readFReg State.writeFReg
  by_cases hr : r = d
  · subst hr; simp
  · have hne : d.toNat ≠ r.toNat := fun h => hr (BitVec.eq_of_toNat_eq h.symm)
    simp [hne, hr]

@[simp] theorem readFReg_writeFReg_self (s : State) (d : FReg) (v : Word) : (s.writeFReg d v).readFReg d = v := by
  simp [readFReg_writeFReg]

@[simp] theorem readFReg_writeFReg_of_ne (s : State) {d r : FReg} (v : Word) (h : r ≠ d) :
    (s.writeFReg d v).readFReg r = s.readFReg r := by
  simp [readFReg_writeFReg, h]

end Sys2Proof.Machine
end

