-- ==== Sys2Proof/Laws/Ops.lean ====
section
/-! SUPPORT. Sys2Proof/Laws/Ops.lean: for each shared operation, once, everything it can do. Proofs about an instruction
cite these instead of unfolding the operation. -/

namespace Sys2Proof.Machine

/-! ## Outcomes -/

@[simp] theorem next_inj {s t : State} : (Host.Outcome.next s : Result) = .next t ↔ s = t := by
  constructor
  · intro h; cases h; rfl
  · intro h; rw [h]

@[simp] theorem fault_ne_next {f : Fault} {t : State} : (Host.Outcome.fault f : Result) ≠ .next t := by
  intro h; cases h

@[simp] theorem refused_ne_next {r : Refusal} {t : State} : (Host.Outcome.refused r : Result) ≠ .next t := by
  intro h; cases h

/-! ## Endings -/

@[simp] theorem raise_eq_next {e : Exception} {s t : State} : raise e s = .next t ↔ trapEntry e s = t := next_inj

@[simp] theorem finishReg_eq_next {s t : State} {r : GReg} {v : Word} :
    finishReg s r v = .next t ↔ (s.writeReg r v).advance = t := next_inj

@[simp] theorem finishFloat_eq_next {s t : State} {r : FReg} {v : Word} :
    finishFloat s r v = .next t ↔ ((s.writeFReg r v).skipDraws 1).advance = t := next_inj

@[simp] theorem finishHiLo_eq_next {s t : State} {x y : Word} :
    finishHiLo s x y = .next t ↔ (s.setHiLo x y).advance = t := next_inj

@[simp] theorem finishHiLoDrawn_eq_next {s t : State} :
    finishHiLoDrawn s = .next t ↔ ((s.setHiLo s.draw s.draw2).skipDraws 2).advance = t := next_inj

/-- `add`, `sub`, `addi` raise Overflow, or write their result (R110, R207). -/
theorem finishTrapping_eq_next {s t : State} {o : Bool} {r : GReg} {v : Word} :
    finishTrapping s o r v = .next t ↔
      (o = true ∧ trapEntry .overflow s = t) ∨ (o = false ∧ (s.writeReg r v).advance = t) := by
  cases o <;> simp [finishTrapping]

/-- A branch goes to its target, or to the next instruction (R176). -/
theorem finishBranch_eq_next {s t : State} {taken : Bool} {imm : Imm16} :
    finishBranch s taken imm = .next t ↔
      (taken = true ∧ s.setPc (branchTarget s.pc imm) = t) ∨ (taken = false ∧ s.advance = t) := by
  cases taken <;> simp [finishBranch]

/-! ## The checks of an access (R45) -/

/-- The checks pass exactly when the address is aligned for the width, allowed, and in MEM_VALID. -/
theorem checkAccess_eq_ok {s : State} {w : Width} {k : AccessKind} {a : Word} :
    checkAccess s w k a = .ok ↔
      alignedFor w a = true ∧ addrOk s.cfg s.mode a k = true ∧ memValidAt s.cfg a.toNat = true := by
  unfold checkAccess
  split
  · rename_i h
    simp only [Bool.and_eq_true] at h
    split <;> simp_all
  · rename_i h
    simp only [Bool.and_eq_true, not_and] at h
    simp only [reduceCtorEq, false_iff, not_and]
    exact fun h1 h2 => absurd h2 (h h1)

/-- The checks raise exactly when the address is misaligned for the width or not allowed; the address is recorded. -/
theorem checkAccess_eq_raises {s : State} {w : Width} {k : AccessKind} {a : Word} {e : Exception} :
    checkAccess s w k a = .raises e ↔
      ¬ (alignedFor w a = true ∧ addrOk s.cfg s.mode a k = true) ∧ e = addressError k a := by
  unfold checkAccess
  split
  · rename_i h
    simp only [Bool.and_eq_true] at h
    split <;> simp [h]
  · rename_i h
    simp only [Bool.and_eq_true] at h
    simp only [AccessCheck.raises.injEq, h, not_false_iff, true_and]
    exact eq_comm

/-- The checks are stuck exactly on an aligned, allowed address outside MEM_VALID (R43). -/
theorem checkAccess_eq_stuck {s : State} {w : Width} {k : AccessKind} {a : Word} {f : Fault} :
    checkAccess s w k a = .stuck f ↔
      (alignedFor w a = true ∧ addrOk s.cfg s.mode a k = true) ∧ memValidAt s.cfg a.toNat = false ∧
        f = .outsideMemValid k a := by
  unfold checkAccess
  split
  · rename_i h
    simp only [Bool.and_eq_true] at h
    cases hv : memValidAt s.cfg a.toNat
    · simp only [Bool.false_eq_true, if_false, AccessCheck.stuck.injEq, h, and_self, true_and]
      exact eq_comm
    · simp
  · rename_i h
    simp only [Bool.and_eq_true] at h
    simp [h]

/-- An access that ends in a next state passed its checks and went on, or took an address error. -/
theorem withAccess_eq_next {s t : State} {w : Width} {k : AccessKind} {a : Word} {r : Result} :
    withAccess s w k a r = .next t ↔
      (checkAccess s w k a = .ok ∧ r = .next t) ∨
        (checkAccess s w k a = .raises (addressError k a) ∧ trapEntry (addressError k a) s = t) := by
  unfold withAccess
  cases h : checkAccess s w k a with
  | ok => simp
  | raises e =>
    have := (checkAccess_eq_raises.1 h).2
    subst this
    simp
  | stuck f => simp

/-- An access whose checks pass goes on. -/
theorem withAccess_of_ok {s : State} {w : Width} {k : AccessKind} {a : Word} (r : Result)
    (h : checkAccess s w k a = .ok) : withAccess s w k a r = r := by simp [withAccess, h]

/-- An access faults only outside MEM_VALID, unless what follows it does. -/
theorem withAccess_eq_fault {s : State} {w : Width} {k : AccessKind} {a : Word} {r : Result} {f : Fault} :
    withAccess s w k a r = .fault f ↔
      (checkAccess s w k a = .ok ∧ r = .fault f) ∨
        (checkAccess s w k a = .stuck (.outsideMemValid k a) ∧ f = .outsideMemValid k a) := by
  unfold withAccess
  cases h : checkAccess s w k a with
  | ok => simp
  | raises e => simp [raise]
  | stuck g =>
    have := (checkAccess_eq_stuck.1 h).2.2
    subst this
    simp only [reduceCtorEq, false_and, false_or, true_and]
    constructor
    · intro h; cases h; rfl
    · intro h; rw [h]

/-! ## Co-processors (R206) -/

/-- A co-processor 0 instruction runs when the unit is usable, and is CoprocessorUnusable otherwise. -/
theorem withCp0_eq_next {s t : State} {k : State → Result} :
    withCp0 s k = .next t ↔
      (s.cp0Usable = true ∧ k s = .next t) ∨ (s.cp0Usable = false ∧ trapEntry (.coprocessorUnusable 0) s = t) := by
  unfold withCp0
  cases s.cp0Usable <;> simp

/-- A co-processor 1 instruction runs when the unit is usable, and is CoprocessorUnusable otherwise. -/
theorem withCp1_eq_next {s t : State} {k : State → Result} :
    withCp1 s k = .next t ↔
      (s.cu1 = true ∧ k s = .next t) ∨ (s.cu1 = false ∧ trapEntry (.coprocessorUnusable 1) s = t) := by
  unfold withCp1
  cases s.cu1 <;> simp

theorem withCp0_of_usable {s : State} (k : State → Result) (h : s.cp0Usable = true) : withCp0 s k = k s := by
  simp [withCp0, h]

theorem withCp1_of_usable {s : State} (k : State → Result) (h : s.cu1 = true) : withCp1 s k = k s := by
  simp [withCp1, h]

/-! ## A step (R203) -/

/-- Everything a step can do: the sampled state takes an interrupt that is due; or the fetch address raises; or the
word is reserved; or the decoded instruction executes. -/
theorem step_eq_next {s t : State} :
    step s = .next t ↔
      (s.beginStep.interruptDue = true ∧ trapEntry .interrupt s.beginStep = t) ∨
        (s.beginStep.interruptDue = false ∧
          checkAccess s.beginStep .word .fetch s.pc = .raises (.addressErrorLoad s.pc) ∧
          trapEntry (.addressErrorLoad s.pc) s.beginStep = t) ∨
        (s.beginStep.interruptDue = false ∧ checkAccess s.beginStep .word .fetch s.pc = .ok ∧
          decodeWord s.beginStep.fetchedWord = none ∧ trapEntry .reservedInstruction s.beginStep = t) ∨
        (s.beginStep.interruptDue = false ∧ checkAccess s.beginStep .word .fetch s.pc = .ok ∧
          ∃ i, decodeWord s.beginStep.fetchedWord = some i ∧ exec i s.beginStep = .next t) := by
  unfold step fetchThen
  cases hi : s.beginStep.interruptDue with
  | true => simp
  | false =>
    simp only [Bool.false_eq_true, if_false, withAccess_eq_next, beginStep_pc, addressError]
    cases hd : decodeWord s.beginStep.fetchedWord with
    | none => simp [or_comm]
    | some i => simp [or_comm]

/-- A step from a state whose fetch is good runs the decoded instruction on the sampled state. -/
theorem step_of_decode {s : State} {i : Instr} (hint : s.beginStep.interruptDue = false)
    (hok : checkAccess s.beginStep .word .fetch s.pc = .ok) (hdec : decodeWord s.beginStep.fetchedWord = some i) :
    step s = exec i s.beginStep := by
  simp [step, fetchThen, hint, withAccess, hok, hdec]

end Sys2Proof.Machine
end

