-- ==== Sys2Proof/Laws/PerInstr.lean ====
section
/-! SUPPORT. Sys2Proof/Laws/PerInstr.lean: laws stated once for each instruction. -/

namespace Sys2Proof

/-! ## What a row's mask keeps of a word put together in a format (R62, R70) -/

theorem mask_encodeI_op (op : BitVec 6) (s t : BitVec 5) (imm : Imm16) :
    encodeI op s t imm &&& 0xFC000000#32 = op ++ 0#26 := by
  apply BitVec.eq_of_getLsbD_eq
  intro i hi
  simp only [encodeI, BitVec.getLsbD_and, BitVec.getLsbD_append]
  interval_cases i <;> simp

theorem mask_encodeI_op_s (op : BitVec 6) (s t : BitVec 5) (imm : Imm16) :
    encodeI op s t imm &&& 0xFFE00000#32 = op ++ s ++ 0#21 := by
  apply BitVec.eq_of_getLsbD_eq
  intro i hi
  simp only [encodeI, BitVec.getLsbD_and, BitVec.getLsbD_append]
  interval_cases i <;> simp

theorem mask_encodeI_op_t (op : BitVec 6) (s t : BitVec 5) (imm : Imm16) :
    encodeI op s t imm &&& 0xFC1F0000#32 = op ++ 0#5 ++ t ++ 0#16 := by
  apply BitVec.eq_of_getLsbD_eq
  intro i hi
  simp only [encodeI, BitVec.getLsbD_and, BitVec.getLsbD_append]
  interval_cases i <;> simp

theorem mask_encodeJ (op : BitVec 6) (tgt : Target) :
    encodeJ op tgt &&& 0xFC000000#32 = op ++ 0#26 := by
  apply BitVec.eq_of_getLsbD_eq
  intro i hi
  simp only [encodeJ, BitVec.getLsbD_and, BitVec.getLsbD_append]
  interval_cases i <;> simp

theorem mask_encodeR_sh (s t d sh : BitVec 5) (fn : BitVec 6) :
    encodeR s t d sh fn &&& 0xFC0007FF#32 = 0#21 ++ sh ++ fn := by
  apply BitVec.eq_of_getLsbD_eq
  intro i hi
  simp only [encodeR, BitVec.getLsbD_and, BitVec.getLsbD_append]
  interval_cases i <;> simp

theorem mask_encodeR_d_sh (s t d sh : BitVec 5) (fn : BitVec 6) :
    encodeR s t d sh fn &&& 0xFC00FFFF#32 = 0#16 ++ d ++ sh ++ fn := by
  apply BitVec.eq_of_getLsbD_eq
  intro i hi
  simp only [encodeR, BitVec.getLsbD_and, BitVec.getLsbD_append]
  interval_cases i <;> simp

theorem mask_encodeR_s_t_sh (s t d sh : BitVec 5) (fn : BitVec 6) :
    encodeR s t d sh fn &&& 0xFFFF07FF#32 = 0#6 ++ s ++ t ++ 0#5 ++ sh ++ fn := by
  apply BitVec.eq_of_getLsbD_eq
  intro i hi
  simp only [encodeR, BitVec.getLsbD_and, BitVec.getLsbD_append]
  interval_cases i <;> simp

theorem mask_encodeR_t_d_sh (s t d sh : BitVec 5) (fn : BitVec 6) :
    encodeR s t d sh fn &&& 0xFC1FFFFF#32 = 0#11 ++ t ++ d ++ sh ++ fn := by
  apply BitVec.eq_of_getLsbD_eq
  intro i hi
  simp only [encodeR, BitVec.getLsbD_and, BitVec.getLsbD_append]
  interval_cases i <;> simp

theorem mask_encodeR_s (s t d sh : BitVec 5) (fn : BitVec 6) :
    encodeR s t d sh fn &&& 0xFFE0003F#32 = 0#6 ++ s ++ 0#15 ++ fn := by
  apply BitVec.eq_of_getLsbD_eq
  intro i hi
  simp only [encodeR, BitVec.getLsbD_and, BitVec.getLsbD_append]
  interval_cases i <;> simp

theorem mask_encodeR_t_sh (s t d sh : BitVec 5) (fn : BitVec 6) :
    encodeR s t d sh fn &&& 0xFC1F07FF#32 = 0#11 ++ t ++ 0#5 ++ sh ++ fn := by
  apply BitVec.eq_of_getLsbD_eq
  intro i hi
  simp only [encodeR, BitVec.getLsbD_and, BitVec.getLsbD_append]
  interval_cases i <;> simp

theorem mask_encodeFR (fmt ft fs fd : BitVec 5) (fn : BitVec 6) :
    encodeFR fmt ft fs fd fn &&& 0xFFE0003F#32 = 17#6 ++ fmt ++ 0#15 ++ fn := by
  apply BitVec.eq_of_getLsbD_eq
  intro i hi
  simp only [encodeFR, BitVec.getLsbD_and, BitVec.getLsbD_append]
  interval_cases i <;> simp

theorem mask_encodeFR_ft (fmt ft fs fd : BitVec 5) (fn : BitVec 6) :
    encodeFR fmt ft fs fd fn &&& 0xFFFF003F#32 = 17#6 ++ fmt ++ ft ++ 0#10 ++ fn := by
  apply BitVec.eq_of_getLsbD_eq
  intro i hi
  simp only [encodeFR, BitVec.getLsbD_and, BitVec.getLsbD_append]
  interval_cases i <;> simp

theorem mask_encodeCM (z : BitVec 2) (sub t d : BitVec 5) :
    encodeCM z sub t d &&& 0xFFE007FF#32 = 4#4 ++ z ++ sub ++ 0#21 := by
  apply BitVec.eq_of_getLsbD_eq
  intro i hi
  simp only [encodeCM, BitVec.getLsbD_and, BitVec.getLsbD_append]
  interval_cases i <;> simp

theorem mask_encode_brk (upper : BitVec 14) (lower : BitVec 5) :
    encode (.brk upper lower) &&& 0xFC00083F#32 = 0#26 ++ 13#6 := by
  apply BitVec.eq_of_getLsbD_eq
  intro i hi
  simp only [encode, BitVec.getLsbD_and, BitVec.getLsbD_append]
  interval_cases i <;> simp

/-! ## Every instruction's word matches a row of the opcode table (R70) -/

/-- The word of the instruction satisfies a row of the table: `(w AND mask) = match`. -/
def Laws.EncodingRow.Statement (i : Instr) : Prop := ∃ r ∈ opcodeTable, r.admits (encode i) = true

/-- It is enough to name the row. -/
theorem encodingRow_of_row (i : Instr) (k : Fin opcodeTable.length)
    (h : encode i &&& (opcodeTable.get k).mask = (opcodeTable.get k).pat) : Laws.EncodingRow.Statement i :=
  ⟨opcodeTable.get k, List.get_mem .., by simpa [Row.admits] using h⟩

theorem Laws.EncodingRow.lw (rt rb : GReg) (imm : Imm16) : Laws.EncodingRow.Statement (.lw rt rb imm) :=
  encodingRow_of_row _ ⟨0, by decide⟩ ((mask_encodeI_op ..).trans (by decide))

theorem Laws.EncodingRow.lb (rt rb : GReg) (imm : Imm16) : Laws.EncodingRow.Statement (.lb rt rb imm) :=
  encodingRow_of_row _ ⟨1, by decide⟩ ((mask_encodeI_op ..).trans (by decide))

theorem Laws.EncodingRow.lbu (rt rb : GReg) (imm : Imm16) : Laws.EncodingRow.Statement (.lbu rt rb imm) :=
  encodingRow_of_row _ ⟨2, by decide⟩ ((mask_encodeI_op ..).trans (by decide))

theorem Laws.EncodingRow.sw (rt rb : GReg) (imm : Imm16) : Laws.EncodingRow.Statement (.sw rt rb imm) :=
  encodingRow_of_row _ ⟨3, by decide⟩ ((mask_encodeI_op ..).trans (by decide))

theorem Laws.EncodingRow.sb (rt rb : GReg) (imm : Imm16) : Laws.EncodingRow.Statement (.sb rt rb imm) :=
  encodingRow_of_row _ ⟨4, by decide⟩ ((mask_encodeI_op ..).trans (by decide))

theorem Laws.EncodingRow.add (rd rs rt : GReg) : Laws.EncodingRow.Statement (.add rd rs rt) :=
  encodingRow_of_row _ ⟨5, by decide⟩ ((mask_encodeR_sh ..).trans (by decide))

theorem Laws.EncodingRow.sub (rd rs rt : GReg) : Laws.EncodingRow.Statement (.sub rd rs rt) :=
  encodingRow_of_row _ ⟨6, by decide⟩ ((mask_encodeR_sh ..).trans (by decide))

theorem Laws.EncodingRow.mult (rs rt : GReg) : Laws.EncodingRow.Statement (.mult rs rt) :=
  encodingRow_of_row _ ⟨7, by decide⟩ ((mask_encodeR_d_sh ..).trans (by decide))

theorem Laws.EncodingRow.div (rs rt : GReg) : Laws.EncodingRow.Statement (.div rs rt) :=
  encodingRow_of_row _ ⟨8, by decide⟩ ((mask_encodeR_d_sh ..).trans (by decide))

theorem Laws.EncodingRow.addu (rd rs rt : GReg) : Laws.EncodingRow.Statement (.addu rd rs rt) :=
  encodingRow_of_row _ ⟨9, by decide⟩ ((mask_encodeR_sh ..).trans (by decide))

theorem Laws.EncodingRow.subu (rd rs rt : GReg) : Laws.EncodingRow.Statement (.subu rd rs rt) :=
  encodingRow_of_row _ ⟨10, by decide⟩ ((mask_encodeR_sh ..).trans (by decide))

theorem Laws.EncodingRow.multu (rs rt : GReg) : Laws.EncodingRow.Statement (.multu rs rt) :=
  encodingRow_of_row _ ⟨11, by decide⟩ ((mask_encodeR_d_sh ..).trans (by decide))

theorem Laws.EncodingRow.divu (rs rt : GReg) : Laws.EncodingRow.Statement (.divu rs rt) :=
  encodingRow_of_row _ ⟨12, by decide⟩ ((mask_encodeR_d_sh ..).trans (by decide))

theorem Laws.EncodingRow.and (rd rs rt : GReg) : Laws.EncodingRow.Statement (.and rd rs rt) :=
  encodingRow_of_row _ ⟨13, by decide⟩ ((mask_encodeR_sh ..).trans (by decide))

theorem Laws.EncodingRow.nor (rd rs rt : GReg) : Laws.EncodingRow.Statement (.nor rd rs rt) :=
  encodingRow_of_row _ ⟨14, by decide⟩ ((mask_encodeR_sh ..).trans (by decide))

theorem Laws.EncodingRow.or (rd rs rt : GReg) : Laws.EncodingRow.Statement (.or rd rs rt) :=
  encodingRow_of_row _ ⟨15, by decide⟩ ((mask_encodeR_sh ..).trans (by decide))

theorem Laws.EncodingRow.xor (rd rs rt : GReg) : Laws.EncodingRow.Statement (.xor rd rs rt) :=
  encodingRow_of_row _ ⟨16, by decide⟩ ((mask_encodeR_sh ..).trans (by decide))

theorem Laws.EncodingRow.addi (rt rs : GReg) (imm : Imm16) : Laws.EncodingRow.Statement (.addi rt rs imm) :=
  encodingRow_of_row _ ⟨17, by decide⟩ ((mask_encodeI_op ..).trans (by decide))

theorem Laws.EncodingRow.addiu (rt rs : GReg) (imm : Imm16) : Laws.EncodingRow.Statement (.addiu rt rs imm) :=
  encodingRow_of_row _ ⟨18, by decide⟩ ((mask_encodeI_op ..).trans (by decide))

theorem Laws.EncodingRow.andi (rt rs : GReg) (imm : Imm16) : Laws.EncodingRow.Statement (.andi rt rs imm) :=
  encodingRow_of_row _ ⟨19, by decide⟩ ((mask_encodeI_op ..).trans (by decide))

theorem Laws.EncodingRow.lui (rt : GReg) (imm : Imm16) : Laws.EncodingRow.Statement (.lui rt imm) :=
  encodingRow_of_row _ ⟨20, by decide⟩ ((mask_encodeI_op_s ..).trans (by decide))

theorem Laws.EncodingRow.ori (rt rs : GReg) (imm : Imm16) : Laws.EncodingRow.Statement (.ori rt rs imm) :=
  encodingRow_of_row _ ⟨21, by decide⟩ ((mask_encodeI_op ..).trans (by decide))

theorem Laws.EncodingRow.xori (rt rs : GReg) (imm : Imm16) : Laws.EncodingRow.Statement (.xori rt rs imm) :=
  encodingRow_of_row _ ⟨22, by decide⟩ ((mask_encodeI_op ..).trans (by decide))

theorem Laws.EncodingRow.mfhi (rd : GReg) : Laws.EncodingRow.Statement (.mfhi rd) :=
  encodingRow_of_row _ ⟨23, by decide⟩ ((mask_encodeR_s_t_sh ..).trans (by decide))

theorem Laws.EncodingRow.mthi (rs : GReg) : Laws.EncodingRow.Statement (.mthi rs) :=
  encodingRow_of_row _ ⟨24, by decide⟩ ((mask_encodeR_t_d_sh ..).trans (by decide))

theorem Laws.EncodingRow.mflo (rd : GReg) : Laws.EncodingRow.Statement (.mflo rd) :=
  encodingRow_of_row _ ⟨25, by decide⟩ ((mask_encodeR_s_t_sh ..).trans (by decide))

theorem Laws.EncodingRow.mtlo (rs : GReg) : Laws.EncodingRow.Statement (.mtlo rs) :=
  encodingRow_of_row _ ⟨26, by decide⟩ ((mask_encodeR_t_d_sh ..).trans (by decide))

theorem Laws.EncodingRow.sll (rd rt : GReg) (sh : Shamt) : Laws.EncodingRow.Statement (.sll rd rt sh) :=
  encodingRow_of_row _ ⟨27, by decide⟩ ((mask_encodeR_s ..).trans (by decide))

theorem Laws.EncodingRow.srl (rd rt : GReg) (sh : Shamt) : Laws.EncodingRow.Statement (.srl rd rt sh) :=
  encodingRow_of_row _ ⟨28, by decide⟩ ((mask_encodeR_s ..).trans (by decide))

theorem Laws.EncodingRow.sra (rd rt : GReg) (sh : Shamt) : Laws.EncodingRow.Statement (.sra rd rt sh) :=
  encodingRow_of_row _ ⟨29, by decide⟩ ((mask_encodeR_s ..).trans (by decide))

theorem Laws.EncodingRow.sllv (rd rt rs : GReg) : Laws.EncodingRow.Statement (.sllv rd rt rs) :=
  encodingRow_of_row _ ⟨30, by decide⟩ ((mask_encodeR_sh ..).trans (by decide))

theorem Laws.EncodingRow.srlv (rd rt rs : GReg) : Laws.EncodingRow.Statement (.srlv rd rt rs) :=
  encodingRow_of_row _ ⟨31, by decide⟩ ((mask_encodeR_sh ..).trans (by decide))

theorem Laws.EncodingRow.srav (rd rt rs : GReg) : Laws.EncodingRow.Statement (.srav rd rt rs) :=
  encodingRow_of_row _ ⟨32, by decide⟩ ((mask_encodeR_sh ..).trans (by decide))

theorem Laws.EncodingRow.lwc1 (ft : FReg) (rb : GReg) (imm : Imm16) : Laws.EncodingRow.Statement (.lwc1 ft rb imm) :=
  encodingRow_of_row _ ⟨33, by decide⟩ ((mask_encodeI_op ..).trans (by decide))

theorem Laws.EncodingRow.swc1 (ft : FReg) (rb : GReg) (imm : Imm16) : Laws.EncodingRow.Statement (.swc1 ft rb imm) :=
  encodingRow_of_row _ ⟨34, by decide⟩ ((mask_encodeI_op ..).trans (by decide))

theorem Laws.EncodingRow.addS (fd fs ft : FReg) : Laws.EncodingRow.Statement (.addS fd fs ft) :=
  encodingRow_of_row _ ⟨35, by decide⟩ ((mask_encodeFR ..).trans (by decide))

theorem Laws.EncodingRow.subS (fd fs ft : FReg) : Laws.EncodingRow.Statement (.subS fd fs ft) :=
  encodingRow_of_row _ ⟨36, by decide⟩ ((mask_encodeFR ..).trans (by decide))

theorem Laws.EncodingRow.mulS (fd fs ft : FReg) : Laws.EncodingRow.Statement (.mulS fd fs ft) :=
  encodingRow_of_row _ ⟨37, by decide⟩ ((mask_encodeFR ..).trans (by decide))

theorem Laws.EncodingRow.divS (fd fs ft : FReg) : Laws.EncodingRow.Statement (.divS fd fs ft) :=
  encodingRow_of_row _ ⟨38, by decide⟩ ((mask_encodeFR ..).trans (by decide))

theorem Laws.EncodingRow.cvtSW (fd fs : FReg) : Laws.EncodingRow.Statement (.cvtSW fd fs) :=
  encodingRow_of_row _ ⟨39, by decide⟩ ((mask_encodeFR_ft ..).trans (by decide))

theorem Laws.EncodingRow.cvtWS (fd fs : FReg) : Laws.EncodingRow.Statement (.cvtWS fd fs) :=
  encodingRow_of_row _ ⟨40, by decide⟩ ((mask_encodeFR_ft ..).trans (by decide))

theorem Laws.EncodingRow.bltz (rs : GReg) (imm : Imm16) : Laws.EncodingRow.Statement (.bltz rs imm) :=
  encodingRow_of_row _ ⟨41, by decide⟩ ((mask_encodeI_op_t ..).trans (by decide))

theorem Laws.EncodingRow.bgez (rs : GReg) (imm : Imm16) : Laws.EncodingRow.Statement (.bgez rs imm) :=
  encodingRow_of_row _ ⟨42, by decide⟩ ((mask_encodeI_op_t ..).trans (by decide))

theorem Laws.EncodingRow.blez (rs : GReg) (imm : Imm16) : Laws.EncodingRow.Statement (.blez rs imm) :=
  encodingRow_of_row _ ⟨43, by decide⟩ ((mask_encodeI_op_t ..).trans (by decide))

theorem Laws.EncodingRow.bgtz (rs : GReg) (imm : Imm16) : Laws.EncodingRow.Statement (.bgtz rs imm) :=
  encodingRow_of_row _ ⟨44, by decide⟩ ((mask_encodeI_op_t ..).trans (by decide))

theorem Laws.EncodingRow.beq (rs rt : GReg) (imm : Imm16) : Laws.EncodingRow.Statement (.beq rs rt imm) :=
  encodingRow_of_row _ ⟨45, by decide⟩ ((mask_encodeI_op ..).trans (by decide))

theorem Laws.EncodingRow.bne (rs rt : GReg) (imm : Imm16) : Laws.EncodingRow.Statement (.bne rs rt imm) :=
  encodingRow_of_row _ ⟨46, by decide⟩ ((mask_encodeI_op ..).trans (by decide))

theorem Laws.EncodingRow.slt (rd rs rt : GReg) : Laws.EncodingRow.Statement (.slt rd rs rt) :=
  encodingRow_of_row _ ⟨47, by decide⟩ ((mask_encodeR_sh ..).trans (by decide))

theorem Laws.EncodingRow.slti (rt rs : GReg) (imm : Imm16) : Laws.EncodingRow.Statement (.slti rt rs imm) :=
  encodingRow_of_row _ ⟨48, by decide⟩ ((mask_encodeI_op ..).trans (by decide))

theorem Laws.EncodingRow.j (target : Target) : Laws.EncodingRow.Statement (.j target) :=
  encodingRow_of_row _ ⟨49, by decide⟩ ((mask_encodeJ ..).trans (by decide))

theorem Laws.EncodingRow.jr (rs : GReg) : Laws.EncodingRow.Statement (.jr rs) :=
  encodingRow_of_row _ ⟨50, by decide⟩ ((mask_encodeR_t_d_sh ..).trans (by decide))

theorem Laws.EncodingRow.jal (target : Target) : Laws.EncodingRow.Statement (.jal target) :=
  encodingRow_of_row _ ⟨51, by decide⟩ ((mask_encodeJ ..).trans (by decide))

theorem Laws.EncodingRow.jalr (rd rs : GReg) : Laws.EncodingRow.Statement (.jalr rd rs) :=
  encodingRow_of_row _ ⟨52, by decide⟩ ((mask_encodeR_t_sh ..).trans (by decide))

theorem Laws.EncodingRow.syscall : Laws.EncodingRow.Statement .syscall :=
  encodingRow_of_row _ ⟨53, by decide⟩ (by decide)

theorem Laws.EncodingRow.brk (upper : BitVec 14) (lower : BitVec 5) : Laws.EncodingRow.Statement (.brk upper lower) :=
  encodingRow_of_row _ ⟨54, by decide⟩ ((mask_encode_brk ..).trans (by decide))

theorem Laws.EncodingRow.rfe : Laws.EncodingRow.Statement .rfe :=
  encodingRow_of_row _ ⟨55, by decide⟩ (by decide)

theorem Laws.EncodingRow.mfc0 (rt : GReg) (cd : CReg) : Laws.EncodingRow.Statement (.mfc0 rt cd) :=
  encodingRow_of_row _ ⟨56, by decide⟩ ((mask_encodeCM ..).trans (by decide))

theorem Laws.EncodingRow.mtc0 (rt : GReg) (cd : CReg) : Laws.EncodingRow.Statement (.mtc0 rt cd) :=
  encodingRow_of_row _ ⟨57, by decide⟩ ((mask_encodeCM ..).trans (by decide))

theorem Laws.EncodingRow.mfc1 (rt : GReg) (fd : FReg) : Laws.EncodingRow.Statement (.mfc1 rt fd) :=
  encodingRow_of_row _ ⟨58, by decide⟩ ((mask_encodeCM ..).trans (by decide))

theorem Laws.EncodingRow.mtc1 (rt : GReg) (fd : FReg) : Laws.EncodingRow.Statement (.mtc1 rt fd) :=
  encodingRow_of_row _ ⟨59, by decide⟩ ((mask_encodeCM ..).trans (by decide))

end Sys2Proof
end

