-- ==== Sys2Proof/Tests/Slice0.lean ====
section
/-! SUPPORT. Sys2Proof/Tests/Slice0.lean: the model's own tests. Every expected value is one of spec/95_test_vectors.md (V<n>)
or of a rule's Example line; each step test runs the written-out word from memory by one whole step. Then the witnesses:
for every statement that has hypotheses, a concrete state and operands that meet them. -/

namespace Sys2Proof.Tests

open Sys2Proof Sys2Proof.Machine

set_option Elab.async false

/-! ## Helpers -/

/-- The launch state of R246: kernel mode, CU1 set, no interrupt, `pc = 0x00400000`. -/
def launch : State := { State.reset with pc := 0x00400000, status := 0x20000000 }

/-- The launch state with some general registers set. -/
def withRegs (rs : List (GReg × Word)) : State := rs.foldl (fun s p => s.writeReg p.1 p.2) launch

/-- The launch state with some floating point registers set. -/
def withFloats (fs : List (FReg × Word)) : State := fs.foldl (fun s p => s.writeFReg p.1 p.2) launch

/-- The launch state with another Status. -/
def withStatus (v : Word) : State := { launch with status := v }

/-- The state run little-endian. -/
def little (s : State) : State := { s with cfg := { s.cfg with byteOrder := .little } }

/-- One step of the word `w`, placed at the program counter, gives a next state that `ok` accepts. -/
def after (w : Nat) (s : State) (ok : State → Bool) : Bool :=
  match step (s.withFetchWord 32 w) with
  | .next t => ok t
  | _ => false

/-- One step of the word `w` is refused with `r`. -/
def refusedWith (w : Nat) (s : State) (r : Refusal) : Bool :=
  match step (s.withFetchWord 32 w) with
  | .refused q => q == r
  | _ => false

/-- The state is at the next instruction and `x[r] = v`. -/
def gprIs (r : GReg) (v : Word) (t : State) : Bool := t.readReg r == v && t.pc == 0x00400004

/-- The state is at the next instruction and `f[r] = v`. -/
def fprIs (r : FReg) (v : Word) (t : State) : Bool := t.readFReg r == v && t.pc == 0x00400004

/-- The state is at the next instruction and `HI`, `LO` are as given. -/
def hiLoIs (hi lo : Word) (t : State) : Bool := t.hi == hi && t.lo == lo && t.pc == 0x00400004

/-- The four bytes from `a` up. -/
def bytesAre (a : Nat) (bs : List Byte) (t : State) : Bool :=
  (List.range 4).map (fun k => t.mem.readByte (a + k)) == bs.map some

/-- The state is at the handler, after the exception of the code, at the launch address. -/
def trappedWith (code : BitVec 5) (t : State) : Bool :=
  t.cause.excCode == code && t.epc == 0x00400000 && t.pc == 0x80000080 && t.cause.bd == 0


/-! ## Decoding: every instruction, from the words the spec writes out (Example lines, part 2) -/

theorem test_decode_lw :
    decodeTableWord 32 0x8C850008 = some (.lw 5 4 8) := by
  decide +kernel

theorem test_decode_lb :
    decodeTableWord 32 0x8085000B = some (.lb 5 4 11) := by
  decide +kernel

theorem test_decode_lbu :
    decodeTableWord 32 0x9085FFFF = some (.lbu 5 4 0xFFFF) := by
  decide +kernel

theorem test_decode_sw :
    decodeTableWord 32 0xAC850008 = some (.sw 5 4 8) := by
  decide +kernel

theorem test_decode_sb :
    decodeTableWord 32 0xA0850009 = some (.sb 5 4 9) := by
  decide +kernel

theorem test_decode_add :
    decodeTableWord 32 0x00221820 = some (.add 3 1 2) := by
  decide +kernel

theorem test_decode_sub :
    decodeTableWord 32 0x00221822 = some (.sub 3 1 2) := by
  decide +kernel

theorem test_decode_mult :
    decodeTableWord 32 0x00220018 = some (.mult 1 2) := by
  decide +kernel

theorem test_decode_div :
    decodeTableWord 32 0x0022001A = some (.div 1 2) := by
  decide +kernel

theorem test_decode_addu :
    decodeTableWord 32 0x00221821 = some (.addu 3 1 2) := by
  decide +kernel

theorem test_decode_subu :
    decodeTableWord 32 0x00221823 = some (.subu 3 1 2) := by
  decide +kernel

theorem test_decode_multu :
    decodeTableWord 32 0x00220019 = some (.multu 1 2) := by
  decide +kernel

theorem test_decode_divu :
    decodeTableWord 32 0x0022001B = some (.divu 1 2) := by
  decide +kernel

theorem test_decode_and :
    decodeTableWord 32 0x00221824 = some (.and 3 1 2) := by
  decide +kernel

theorem test_decode_nor :
    decodeTableWord 32 0x00221827 = some (.nor 3 1 2) := by
  decide +kernel

theorem test_decode_or :
    decodeTableWord 32 0x00221825 = some (.or 3 1 2) := by
  decide +kernel

theorem test_decode_xor :
    decodeTableWord 32 0x00221826 = some (.xor 3 1 2) := by
  decide +kernel

theorem test_decode_addi :
    decodeTableWord 32 0x2022FFF9 = some (.addi 2 1 0xFFF9) := by
  decide +kernel

theorem test_decode_addiu :
    decodeTableWord 32 0x24228000 = some (.addiu 2 1 0x8000) := by
  decide +kernel

theorem test_decode_andi :
    decodeTableWord 32 0x3022FF00 = some (.andi 2 1 0xFF00) := by
  decide +kernel

theorem test_decode_lui :
    decodeTableWord 32 0x3C028001 = some (.lui 2 0x8001) := by
  decide +kernel

theorem test_decode_ori :
    decodeTableWord 32 0x342280CD = some (.ori 2 1 0x80CD) := by
  decide +kernel

theorem test_decode_xori :
    decodeTableWord 32 0x3822FFFF = some (.xori 2 1 0xFFFF) := by
  decide +kernel

theorem test_decode_mfhi :
    decodeTableWord 32 0x00001810 = some (.mfhi 3) := by
  decide +kernel

theorem test_decode_mthi :
    decodeTableWord 32 0x00800011 = some (.mthi 4) := by
  decide +kernel

theorem test_decode_mflo :
    decodeTableWord 32 0x00001812 = some (.mflo 3) := by
  decide +kernel

theorem test_decode_mtlo :
    decodeTableWord 32 0x00800013 = some (.mtlo 4) := by
  decide +kernel

theorem test_decode_sll :
    decodeTableWord 32 0x00021FC0 = some (.sll 3 2 31) := by
  decide +kernel

theorem test_decode_srl :
    decodeTableWord 32 0x00021902 = some (.srl 3 2 4) := by
  decide +kernel

theorem test_decode_sra :
    decodeTableWord 32 0x00021903 = some (.sra 3 2 4) := by
  decide +kernel

theorem test_decode_sllv :
    decodeTableWord 32 0x00221804 = some (.sllv 3 2 1) := by
  decide +kernel

theorem test_decode_srlv :
    decodeTableWord 32 0x00221806 = some (.srlv 3 2 1) := by
  decide +kernel

theorem test_decode_srav :
    decodeTableWord 32 0x00221807 = some (.srav 3 2 1) := by
  decide +kernel

theorem test_decode_lwc1 :
    decodeTableWord 32 0xC4860008 = some (.lwc1 6 4 8) := by
  decide +kernel

theorem test_decode_swc1 :
    decodeTableWord 32 0xE4860008 = some (.swc1 6 4 8) := by
  decide +kernel

theorem test_decode_addS :
    decodeTableWord 32 0x46041180 = some (.addS 6 2 4) := by
  decide +kernel

theorem test_decode_subS :
    decodeTableWord 32 0x46041181 = some (.subS 6 2 4) := by
  decide +kernel

theorem test_decode_mulS :
    decodeTableWord 32 0x46041182 = some (.mulS 6 2 4) := by
  decide +kernel

theorem test_decode_divS :
    decodeTableWord 32 0x46041183 = some (.divS 6 2 4) := by
  decide +kernel

theorem test_decode_cvtSW :
    decodeTableWord 32 0x468011A0 = some (.cvtSW 6 2) := by
  decide +kernel

theorem test_decode_cvtWS :
    decodeTableWord 32 0x460011A4 = some (.cvtWS 6 2) := by
  decide +kernel

theorem test_decode_bltz :
    decodeTableWord 32 0x04200003 = some (.bltz 1 3) := by
  decide +kernel

theorem test_decode_bgez :
    decodeTableWord 32 0x0421FFFE = some (.bgez 1 0xFFFE) := by
  decide +kernel

theorem test_decode_blez :
    decodeTableWord 32 0x18200010 = some (.blez 1 0x10) := by
  decide +kernel

theorem test_decode_bgtz :
    decodeTableWord 32 0x1C20FFFF = some (.bgtz 1 0xFFFF) := by
  decide +kernel

theorem test_decode_beq :
    decodeTableWord 32 0x10220005 = some (.beq 1 2 5) := by
  decide +kernel

theorem test_decode_bne :
    decodeTableWord 32 0x1422FFFC = some (.bne 1 2 0xFFFC) := by
  decide +kernel

theorem test_decode_slt :
    decodeTableWord 32 0x0022182A = some (.slt 3 1 2) := by
  decide +kernel

theorem test_decode_slti :
    decodeTableWord 32 0x2822FFFF = some (.slti 2 1 0xFFFF) := by
  decide +kernel

theorem test_decode_j :
    decodeTableWord 32 0x0BFFFFFF = some (.j 0x3FFFFFF) := by
  decide +kernel

theorem test_decode_jr :
    decodeTableWord 32 0x03E00008 = some (.jr 31) := by
  decide +kernel

theorem test_decode_jal :
    decodeTableWord 32 0x0C100040 = some (.jal 0x0100040) := by
  decide +kernel

theorem test_decode_jalr :
    decodeTableWord 32 0x0020F809 = some (.jalr 31 1) := by
  decide +kernel

theorem test_decode_syscall :
    decodeTableWord 32 0x0000000C = some (.syscall) := by
  decide +kernel

theorem test_decode_break :
    decodeTableWord 32 0x03FFF7CD = some (.brk 0x3FFF 31) := by
  decide +kernel

theorem test_decode_rfe :
    decodeTableWord 32 0x42000010 = some (.rfe) := by
  decide +kernel

theorem test_decode_mfc0 :
    decodeTableWord 32 0x40057000 = some (.mfc0 5 14) := by
  decide +kernel

theorem test_decode_mtc0 :
    decodeTableWord 32 0x40856000 = some (.mtc0 5 12) := by
  decide +kernel

theorem test_decode_mfc1 :
    decodeTableWord 32 0x44053000 = some (.mfc1 5 6) := by
  decide +kernel

theorem test_decode_mtc1 :
    decodeTableWord 32 0x44853000 = some (.mtc1 5 6) := by
  decide +kernel


/-- V92, V105, V127, V208, V226, V256, V265, V280: words that match no row. -/
theorem test_reserved_words :
    ([0x3C200001, 0x00201010, 0x00221800, 0x46000005, 0x46200000, 0x0402FFFF, 0x0022182B,
      0x2C220001, 0x03E00808, 0x0000080D, 0x42000018, 0x0000000E, 0xFFFFFFFF, 0x84850008] : List Nat).map (decodeTableWord 32) = List.replicate 14 none := by
  decide +kernel

/-- R44: the same word in little-endian bytes. -/
theorem test_decode_bytes_little :
    decodeBytes .little [0x08#8, 0x00#8, 0x85#8, 0x8C#8] = .instr (.lw 5 4 8) [] := by
  decide +kernel

/-- R60: there is no instruction of fewer than four bytes. -/
theorem test_decode_truncated :
    decodeBytes .big [0x8C#8, 0x85#8, 0x00#8] = .truncated := by
  decide +kernel


/-! ## WellFormed: one ill-formed term for each check -/

/-- V255. -/
theorem test_wellFormed_refuses_jalr_link_is_target :
    (Instr.jalr 1 1).wellFormed = false := by
  decide +kernel

/-- V274. -/
theorem test_wellFormed_refuses_mfc0_absent :
    (Instr.mfc0 5 9).wellFormed = false := by
  decide +kernel

/-- V277. -/
theorem test_wellFormed_refuses_mtc0_readOnly :
    (Instr.mtc0 5 14).wellFormed = false := by
  decide +kernel

theorem test_wellFormed_accepts :
    (Instr.jalr 31 1).wellFormed && (Instr.mfc0 5 14).wellFormed && (Instr.mtc0 5 13).wellFormed = true := by
  decide +kernel


/-! ## One step of each instruction -/

/-- V15: the address wraps. -/
theorem test_lw :
    after 0x8C850008 ((withRegs [(4, 0xFFFFFFFC)]).storeWord 4 0x0BADC0DE) (gprIs 5 0x0BADC0DE) = true := by
  decide +kernel

/-- V2. -/
theorem test_lb :
    after 0x8085000B ((withRegs [(4, 0x1000)]).storeWord 0x1008 0x11223384) (gprIs 5 0xFFFFFF84) = true := by
  decide +kernel

/-- V3. -/
theorem test_lb_little :
    after 0x8085000B ((little (withRegs [(4, 0x1000)])).storeWord 0x1008 0x11223384)
      (gprIs 5 0x00000011) = true := by
  decide +kernel

/-- V6. -/
theorem test_lbu :
    after 0x90850008 ((withRegs [(4, 0x1000)]).storeWord 0x1008 0x81223384) (gprIs 5 0x00000081) = true := by
  decide +kernel

/-- V9. -/
theorem test_lbu_negative :
    after 0x9085FFFF ((little (withRegs [(4, 0x100C)])).storeWord 0x1008 0x81223384)
      (gprIs 5 0x00000081) = true := by
  decide +kernel

/-- V11. -/
theorem test_sw_little :
    after 0xAC850008 (little (withRegs [(4, 0x1000), (5, 0xDEADBEEF)]))
      (bytesAre 0x1008 [0xEF, 0xBE, 0xAD, 0xDE]) = true := by
  decide +kernel

/-- V12. -/
theorem test_sb :
    after 0xA0850009 ((withRegs [(4, 0x1000), (5, 0x123456AB)]).storeWord 0x1008 0x11223344)
      (bytesAre 0x1008 [0x11, 0xAB, 0x33, 0x44]) = true := by
  decide +kernel

/-- V17. -/
theorem test_sw_misaligned :
    after 0xAC850008 (withRegs [(4, 0x1002)])
      (fun t => trappedWith 5 t && t.badVAddr == 0x100A && t.mem.length == 4) = true := by
  decide +kernel

/-- V16. -/
theorem test_lw_misaligned :
    after 0x8C850008 (withRegs [(4, 0x1001), (5, 7)])
      (fun t => trappedWith 4 t && t.badVAddr == 0x1009 && t.readReg 5 == 7) = true := by
  decide +kernel

/-- V23: carry out is not overflow. -/
theorem test_add_no_overflow :
    after 0x00221820 (withRegs [(1, 0xFFFFFFFF), (2, 1)]) (gprIs 3 0) = true := by
  decide +kernel

/-- V29. -/
theorem test_sub :
    after 0x00221822 (withRegs [(1, 0xFFFFFFFF), (2, 0x80000000)]) (gprIs 3 0x7FFFFFFF) = true := by
  decide +kernel

/-- V30. -/
theorem test_addu :
    after 0x00221821 (withRegs [(1, 0x7FFFFFFF), (2, 1)]) (gprIs 3 0x80000000) = true := by
  decide +kernel

/-- V32. -/
theorem test_subu :
    after 0x00221823 (withRegs [(1, 0), (2, 1)]) (gprIs 3 0xFFFFFFFF) = true := by
  decide +kernel

/-- V34. -/
theorem test_and :
    after 0x00221824 (withRegs [(1, 0xF0F0A5A5), (2, 0x0FF0FFFF)]) (gprIs 3 0x00F0A5A5) = true := by
  decide +kernel

/-- V35. -/
theorem test_or :
    after 0x00221825 (withRegs [(1, 0xF0F0A5A5), (2, 0x0FF00000)]) (gprIs 3 0xFFF0A5A5) = true := by
  decide +kernel

/-- V36. -/
theorem test_xor :
    after 0x00221826 (withRegs [(1, 0xF0F0A5A5), (2, 0xFFFFFFFF)]) (gprIs 3 0x0F0F5A5A) = true := by
  decide +kernel

/-- V37. -/
theorem test_nor :
    after 0x00221827 (withRegs [(1, 0xF0F0A5A5), (2, 0x0FF00000)]) (gprIs 3 0x000F5A5A) = true := by
  decide +kernel

/-- V21. -/
theorem test_add_overflow :
    after 0x00221820 (withRegs [(1, 0x7FFFFFFF), (2, 1), (3, 0xAAAAAAAA)])
      (fun t => trappedWith 12 t && t.readReg 3 == 0xAAAAAAAA) = true := by
  decide +kernel

/-- V28. -/
theorem test_sub_overflow :
    after 0x00221822 (withRegs [(1, 0), (2, 0x80000000), (3, 0xAAAAAAAA)])
      (fun t => trappedWith 12 t && t.readReg 3 == 0xAAAAAAAA) = true := by
  decide +kernel

/-- V43. -/
theorem test_mult :
    after 0x00220018 (withRegs [(1, 0xFFFFFFFE), (2, 3)]) (hiLoIs 0xFFFFFFFF 0xFFFFFFFA) = true := by
  decide +kernel

/-- V42. -/
theorem test_mult_min :
    after 0x00220018 (withRegs [(1, 0x80000000), (2, 0x80000000)]) (hiLoIs 0x40000000 0) = true := by
  decide +kernel

/-- V45. -/
theorem test_multu :
    after 0x00220019 (withRegs [(1, 0xFFFFFFFF), (2, 0xFFFFFFFF)]) (hiLoIs 0xFFFFFFFE 1) = true := by
  decide +kernel

/-- V50. -/
theorem test_div_truncates :
    after 0x0022001A (withRegs [(1, 0xFFFFFFEF), (2, 5)]) (hiLoIs 0xFFFFFFFE 0xFFFFFFFD) = true := by
  decide +kernel

/-- V51. -/
theorem test_div_negative_divisor :
    after 0x0022001A (withRegs [(1, 0x11), (2, 0xFFFFFFFB)]) (hiLoIs 2 0xFFFFFFFD) = true := by
  decide +kernel

/-- V59. -/
theorem test_divu :
    after 0x0022001B (withRegs [(1, 0xFFFFFFEF), (2, 5)]) (hiLoIs 4 0x3333332F) = true := by
  decide +kernel

/-- V61. -/
theorem test_divu_large_divisor :
    after 0x0022001B (withRegs [(1, 0x80000000), (2, 0xFFFFFFFF)]) (hiLoIs 0x80000000 0) = true := by
  decide +kernel

/-- V76: the largest sum that fits. -/
theorem test_addi :
    after 0x20227FFF (withRegs [(1, 0x7FFF8000), (2, 0xAAAAAAAA)]) (gprIs 2 0x7FFFFFFF) = true := by
  decide +kernel

/-- V81: the immediate is sign-extended. -/
theorem test_addiu :
    after 0x24228000 (withRegs [(1, 0x1000), (2, 0xAAAAAAAA)]) (gprIs 2 0xFFFF9000) = true := by
  decide +kernel

/-- V82. -/
theorem test_andi :
    after 0x30228001 (withRegs [(1, 0xFFFFFFFF), (2, 0xAAAAAAAA)]) (gprIs 2 0x00008001) = true := by
  decide +kernel

/-- V84. -/
theorem test_ori :
    after 0x34228001 (withRegs [(1, 0x12340000), (2, 0xAAAAAAAA)]) (gprIs 2 0x12348001) = true := by
  decide +kernel

/-- V86. -/
theorem test_xori :
    after 0x3822FFFF (withRegs [(1, 0xFFFFFFFF), (2, 0xAAAAAAAA)]) (gprIs 2 0xFFFF0000) = true := by
  decide +kernel

/-- V89. -/
theorem test_lui :
    after 0x3C028000 (withRegs [(1, 0), (2, 0xAAAAAAAA)]) (gprIs 2 0x80000000) = true := by
  decide +kernel

/-- V77. -/
theorem test_addi_overflow :
    after 0x20227FFF (withRegs [(1, 0x7FFF8001), (2, 0xAAAAAAAA)])
      (fun t => trappedWith 12 t && t.readReg 2 == 0xAAAAAAAA) = true := by
  decide +kernel

/-- V100. -/
theorem test_mfhi :
    after 0x00001810 { withRegs [(1, 0xDEADBEEF)] with hi := 0xCAFEBABE, lo := 0x12345678 }
      (gprIs 3 0xCAFEBABE) = true := by
  decide +kernel

/-- V101. -/
theorem test_mflo :
    after 0x00001812 { withRegs [(1, 0xDEADBEEF)] with hi := 0xCAFEBABE, lo := 0x12345678 }
      (gprIs 3 0x12345678) = true := by
  decide +kernel

/-- V102: LO keeps its value. -/
theorem test_mthi :
    after 0x00200011 { withRegs [(1, 0xDEADBEEF)] with hi := 0xCAFEBABE, lo := 0x12345678 }
      (hiLoIs 0xDEADBEEF 0x12345678) = true := by
  decide +kernel

/-- V103: HI keeps its value. -/
theorem test_mtlo :
    after 0x00200013 { withRegs [(1, 0xDEADBEEF)] with hi := 0xCAFEBABE, lo := 0x12345678 }
      (hiLoIs 0xCAFEBABE 0xDEADBEEF) = true := by
  decide +kernel

/-- V111. -/
theorem test_sll :
    after 0x00021840 (withRegs [(2, 0x80000001)]) (gprIs 3 2) = true := by
  decide +kernel

/-- V112. -/
theorem test_sll_31 :
    after 0x00021FC0 (withRegs [(2, 1)]) (gprIs 3 0x80000000) = true := by
  decide +kernel

/-- V118. -/
theorem test_srl :
    after 0x00021902 (withRegs [(2, 0x12345678)]) (gprIs 3 0x01234567) = true := by
  decide +kernel

/-- V117. -/
theorem test_srl_31 :
    after 0x00021FC2 (withRegs [(2, 0x80000000)]) (gprIs 3 1) = true := by
  decide +kernel

/-- V121. -/
theorem test_sra :
    after 0x00021843 (withRegs [(2, 0x80000001)]) (gprIs 3 0xC0000000) = true := by
  decide +kernel

/-- V123. -/
theorem test_sra_positive :
    after 0x00021FC3 (withRegs [(2, 0x7FFFFFFF)]) (gprIs 3 0) = true := by
  decide +kernel

/-- V134: bits 4..0 of the amount. -/
theorem test_sllv :
    after 0x00221804 (withRegs [(2, 0x12345678), (1, 0xFFFFFFE8)]) (gprIs 3 0x34567800) = true := by
  decide +kernel

/-- V137. -/
theorem test_srlv :
    after 0x00221806 (withRegs [(2, 0x80000000), (1, 0x21)]) (gprIs 3 0x40000000) = true := by
  decide +kernel

/-- V142. -/
theorem test_srav :
    after 0x00221807 (withRegs [(2, 0x7FFFFFFF), (1, 0x8004)]) (gprIs 3 0x07FFFFFF) = true := by
  decide +kernel

/-- V141. -/
theorem test_srav_32 :
    after 0x00221807 (withRegs [(2, 0x80000000), (1, 0x20)]) (gprIs 3 0x80000000) = true := by
  decide +kernel

/-- V152: a tie goes to the even. -/
theorem test_addS_tie :
    after 0x46041180 (withFloats [(2, 0x4B800000), (4, 0x3F800000)]) (fprIs 6 0x4B800000) = true := by
  decide +kernel

/-- V153. -/
theorem test_addS :
    after 0x46041180 (withFloats [(2, 0x4B800000), (4, 0x40400000)]) (fprIs 6 0x4B800002) = true := by
  decide +kernel

/-- V154. -/
theorem test_subS :
    after 0x46041181 (withFloats [(2, 0x3FC00000), (4, 0x40100000)]) (fprIs 6 0xBF400000) = true := by
  decide +kernel

/-- V155. -/
theorem test_subS_zero :
    after 0x46041181 (withFloats [(2, 0), (4, 0x3F800000)]) (fprIs 6 0xBF800000) = true := by
  decide +kernel

/-- V156. -/
theorem test_mulS :
    after 0x46041182 (withFloats [(2, 0x3FC00000), (4, 0xC0000000)]) (fprIs 6 0xC0400000) = true := by
  decide +kernel

/-- V158. -/
theorem test_mulS_rounds :
    after 0x46041182 (withFloats [(2, 0x3DCCCCCD), (4, 0x41200000)]) (fprIs 6 0x3F800000) = true := by
  decide +kernel

/-- V160. -/
theorem test_divS :
    after 0x46041183 (withFloats [(2, 0x3F800000), (4, 0x40400000)]) (fprIs 6 0x3EAAAAAB) = true := by
  decide +kernel

/-- V162. -/
theorem test_divS_by_zero :
    after 0x46041183 (withFloats [(2, 0x3F800000), (4, 0)]) (fprIs 6 0x7F800000) = true := by
  decide +kernel

/-- V179: a tie, up to the even. -/
theorem test_cvtSW :
    after 0x468011A0 (withFloats [(2, 0x02000006), (4, 0)]) (fprIs 6 0x4C000002) = true := by
  decide +kernel

/-- V175. -/
theorem test_cvtSW_min :
    after 0x468011A0 (withFloats [(2, 0x80000000), (4, 0)]) (fprIs 6 0xCF000000) = true := by
  decide +kernel

/-- V189: -2.5. -/
theorem test_cvtWS :
    after 0x460011A4 (withFloats [(2, 0xC0200000), (4, 0)]) (fprIs 6 0xFFFFFFFE) = true := by
  decide +kernel

/-- V185. -/
theorem test_cvtWS_largest :
    after 0x460011A4 (withFloats [(2, 0x4EFFFFFF), (4, 0)]) (fprIs 6 0x7FFFFF80) = true := by
  decide +kernel

/-- V200. -/
theorem test_lwc1 :
    after 0xC4860008 ((withRegs [(4, 0x1000)]).storeWord 0x1008 0x3FC00000) (fprIs 6 0x3FC00000) = true := by
  decide +kernel

/-- V207. -/
theorem test_lwc1_unusable_before_address :
    after 0xC4860008 { withRegs [(4, 0x1001)] with status := 0, badVAddr := 9 }
      (fun t => trappedWith 11 t && t.cause.ce == 1 && t.badVAddr == 9) = true := by
  decide +kernel

/-- V201. -/
theorem test_swc1 :
    after 0xE4860008 ((withRegs [(4, 0x1000)]).writeFReg 6 0xC0200000)
      (bytesAre 0x1008 [0xC0, 0x20, 0x00, 0x00]) = true := by
  decide +kernel

/-- V210. -/
theorem test_bltz_taken :
    after 0x04200003 (withRegs [(1, 0x80000000)]) (fun t => t.pc == 0x00400010) = true := by
  decide +kernel

/-- V210. -/
theorem test_bltz_not_taken :
    after 0x04200003 (withRegs [(1, 0)]) (fun t => t.pc == 0x00400004) = true := by
  decide +kernel

/-- V211. -/
theorem test_bgez_taken :
    after 0x04210003 (withRegs [(1, 0)]) (fun t => t.pc == 0x00400010) = true := by
  decide +kernel

/-- V211. -/
theorem test_bgez_not_taken :
    after 0x04210003 (withRegs [(1, 0xFFFFFFFF)]) (fun t => t.pc == 0x00400004) = true := by
  decide +kernel

/-- V212. -/
theorem test_blez_taken :
    after 0x18200003 (withRegs [(1, 0)]) (fun t => t.pc == 0x00400010) = true := by
  decide +kernel

/-- V212. -/
theorem test_blez_not_taken :
    after 0x18200003 (withRegs [(1, 1)]) (fun t => t.pc == 0x00400004) = true := by
  decide +kernel

/-- V213. -/
theorem test_bgtz_taken :
    after 0x1C200003 (withRegs [(1, 0x7FFFFFFF)]) (fun t => t.pc == 0x00400010) = true := by
  decide +kernel

/-- V213. -/
theorem test_bgtz_not_taken :
    after 0x1C200003 (withRegs [(1, 0x80000000)]) (fun t => t.pc == 0x00400004) = true := by
  decide +kernel

/-- V224. -/
theorem test_beq_farthest_back :
    after 0x10228000 (withRegs [(1, 7), (2, 7)]) (fun t => t.pc == 0x003E0004) = true := by
  decide +kernel

/-- V216. -/
theorem test_beq_not_taken :
    after 0x1022FFFC (withRegs [(1, 0), (2, 0x80000000)]) (fun t => t.pc == 0x00400004) = true := by
  decide +kernel

/-- V220. -/
theorem test_bne_taken :
    after 0x1422FFFC (withRegs [(1, 0), (2, 0x80000000)]) (fun t => t.pc == 0x003FFFF4) = true := by
  decide +kernel

/-- V218. -/
theorem test_bne_not_taken :
    after 0x1422FFFC (withRegs [(1, 5), (2, 5)]) (fun t => t.pc == 0x00400004) = true := by
  decide +kernel

/-- V235. -/
theorem test_slt :
    after 0x0022182A (withRegs [(1, 0x80000000), (2, 0x7FFFFFFF)]) (gprIs 3 1) = true := by
  decide +kernel

/-- V243. -/
theorem test_slti :
    after 0x28228000 (withRegs [(1, 0xFFFF7FFF)]) (gprIs 2 1) = true := by
  decide +kernel

/-- V240. -/
theorem test_slti_not_less :
    after 0x2822FFFF (withRegs [(1, 0)]) (gprIs 2 0) = true := by
  decide +kernel

/-- V246. -/
theorem test_j :
    after 0x0BFFFFFF { launch with pc := 0x90000000 } (fun t => t.pc == 0x9FFFFFFC) = true := by
  decide +kernel

/-- V247: the region is that of the jump itself. -/
theorem test_j_region :
    after 0x08000000 { launch with pc := 0x0FFFFFFC } (fun t => t.pc == 0) = true := by
  decide +kernel

/-- V251: nothing is masked. -/
theorem test_jr :
    after 0x00200008 (withRegs [(1, 0x00400102)]) (fun t => t.pc == 0x00400102) = true := by
  decide +kernel

/-- V249. -/
theorem test_jal :
    after 0x0C100000 { launch with pc := 0x0040FFFC }
      (fun t => t.pc == 0x00400000 && t.readReg 31 == 0x00410000) = true := by
  decide +kernel

/-- V252. -/
theorem test_jalr :
    after 0x00202809 (withRegs [(1, 0x00400200)])
      (fun t => t.pc == 0x00400200 && t.readReg 5 == 0x00400004) = true := by
  decide +kernel

/-- V254. -/
theorem test_jalr_discarded_link :
    after 0x00200009 (withRegs [(1, 0x00400200)]) (fun t => t.pc == 0x00400200 && t.readReg 0 == 0) = true := by
  decide +kernel

/-- V260. -/
theorem test_syscall :
    after 0x0000000C (withStatus 0x2000FF17) (fun t => trappedWith 8 t && t.status == 0x2000FF1C) = true := by
  decide +kernel

/-- V262: the old pair is lost. -/
theorem test_syscall_deep :
    after 0x0000000C (withStatus 0x3000003F) (fun t => t.status == 0x3000003C) = true := by
  decide +kernel

/-- V264. -/
theorem test_break :
    after 0x03FFF7CD (withStatus 3) (fun t => trappedWith 9 t && t.status == 0xC) = true := by
  decide +kernel

/-- V266. -/
theorem test_rfe :
    after 0x42000010 (withStatus 0x2000FF2C) (fun t => t.status == 0x2000FF2B && t.pc == 0x00400004) = true := by
  decide +kernel

/-- V269. -/
theorem test_rfe_unusable :
    after 0x42000010 (withStatus 2) (fun t => trappedWith 11 t && t.cause.ce == 0 && t.status == 8) = true := by
  decide +kernel

/-- V272: `IP[7:0]` as `mfc0` reads them from Cause, the lines `100001` above the requests `10`, whatever the draws. -/
theorem test_causeWord_shows_requests :
    ({ launch with cause := ⟨12, 2, 1, 0⟩, irq := 0x21 } : State).causeWord.extractLsb' 8 8 = 0x86 := by
  apply BitVec.eq_of_getLsbD_eq
  intro i hi
  simp only [State.causeWord, BitVec.getLsbD_extractLsb', BitVec.getLsbD_append]
  interval_cases i <;> simp

/-- V270. -/
theorem test_mfc0 :
    after 0x40057000 { launch with epc := 0x00400123 } (gprIs 5 0x00400123) = true := by
  decide +kernel

/-- V275. -/
theorem test_mtc0_status :
    after 0x40856000 (withRegs [(5, 0x3000FF01)]) (fun t => t.status == 0x3000FF01) = true := by
  decide +kernel

/-- V276. -/
theorem test_mtc0_cause :
    after 0x40856800 { withRegs [(5, 0xFFFFFFFF)] with cause := ⟨12, 0, 1, 0⟩ }
      (fun t => t.cause == ⟨12, 3, 1, 0⟩) = true := by
  decide +kernel

/-- V204. -/
theorem test_mfc1 :
    after 0x44053000 (withFloats [(6, 0x40490FDB)]) (gprIs 5 0x40490FDB) = true := by
  decide +kernel

/-- V205. -/
theorem test_mtc1 :
    after 0x44853000 (withRegs [(5, 0x40490FDB)]) (fprIs 6 0x40490FDB) = true := by
  decide +kernel

/-! ## Refusals, stops and the step itself -/

/-- V255. -/
theorem test_jalr_link_is_target_refused :
    refusedWith 0x00200809 launch .jalrLinkIsTarget = true := by
  decide +kernel

/-- V274. -/
theorem test_mfc0_absent_refused :
    refusedWith 0x40054800 launch (.controlRegisterAbsent 9) = true := by
  decide +kernel

/-- V277. -/
theorem test_mtc0_epc_refused :
    refusedWith 0x40857000 launch (.controlRegisterReadOnly 14) = true := by
  decide +kernel

/-- V297. -/
theorem test_stuck_outside_memory :
    (match step { launch with cfg := { Config.default with memValid := [] } } with
    | .fault f => f == .outsideMemValid .fetch 0x00400000
    | _ => false) = true := by
  decide +kernel

/-- V290. -/
theorem test_interrupt_taken :
    after 0x00221820 { withStatus 0x20000401 with irqIn := [1] }
      (fun t => trappedWith 0 t && t.status == 0x20000404 && t.irq == 1) = true := by
  decide +kernel

/-- V292. -/
theorem test_interrupt_masked :
    after 0x00221820 { withRegs [(1, 1), (2, 2)] with status := 0x20000801, irqIn := [1] } (gprIs 3 3) = true := by
  decide +kernel

/-- V293. -/
theorem test_software_interrupt :
    after 0x00221820 { withStatus 0x20000101 with cause := ⟨0, 1, 0, 0⟩ }
      (fun t => trappedWith 0 t && t.status == 0x20000104 && t.cause.ip == 1) = true := by
  decide +kernel

/-- V294. -/
theorem test_fetch_misaligned :
    after 0x00221820 { launch with pc := 0x00400002 }
      (fun t => t.cause.excCode == 4 && t.epc == 0x00400002 && t.badVAddr == 0x00400002) = true := by
  decide +kernel

/-- V92. -/
theorem test_reserved_instruction :
    after 0x3C200001 launch (trappedWith 10) = true := by
  decide +kernel

/-- V104: the write is discarded. -/
theorem test_register_zero :
    after 0x00000010 { launch with hi := 0xCAFEBABE } (gprIs 0 0) = true := by
  decide +kernel

/-! ## Witnesses: the hypotheses of each statement can be met -/

/-- `exec` of the instruction gives a next state. -/
def completes (i : Instr) (s : State) : Bool :=
  match exec i s with
  | .next _ => true
  | _ => false

/-- The answer is a next state that `ok` accepts. -/
def stepsTo (r : Result) (ok : State → Bool) : Bool :=
  match r with
  | .next t => ok t
  | _ => false

/-- The step gives a next state. -/
def steps (s : State) : Bool :=
  match step s with
  | .next _ => true
  | _ => false

/-- The launch state with parameters changed. -/
def withCfg (f : Config → Config) (s : State) : State := { s with cfg := f s.cfg }

/-- Memory ends below 0x1000, and the first address is the last of a word range. -/
def smallMemory (c : Config) : Config := { c with memValid := [⟨0, 0x400⟩] }

/-- User mode may not load, store or fetch from 0x80000000 up. -/
def kernelOnlyAbove (c : Config) : Config :=
  { c with addrBans := [⟨.user, .load, 0x80000000, 0x80000000⟩, ⟨.user, .store, 0x80000000, 0x80000000⟩,
      ⟨.user, .fetch, 0x80000000, 0x80000000⟩] }

/-- The launch state in user mode under that ban, `x[4] = 0x80000000`. -/
def userAtBan : State := withCfg kernelOnlyAbove { withRegs [(4, 0x80000000)] with status := 0x20000002 }


theorem witness_EncodeDecodeRoundTrip :
    decodeWord 0x03FFF7CD#32 = some (.brk 0x3FFF 31) ∧ decodeWord 0x0000080D#32 = none ∧
      encode (.sll 0 0 0) = encode (.sll 0 0 0) := by decide +kernel

theorem witness_DecoderFollowsThePrintedTable :
    ⟨"lw", "1000 11bb bbbt tttt iiii iiii iiii iiii", 0x8C000000#32, 0xFC000000#32⟩ ∈ printedRows ∧
      0x8FFFFFFF#32 &&& 0xFC000000#32 = 0x8C000000#32 ∧ 0xFFFFFFFF#32 &&& 0xFC000000#32 ≠ 0x8C000000#32 := by decide +kernel

/-- Every operand bit set, for each clause. -/
theorem witness_FieldsReadTheirBits :
    0x8FFFFFFF#32 &&& 0xFC000000#32 = 0x8C000000#32 ∧
      0xE7FFFFFF#32 &&& 0xFC000000#32 = 0xE4000000#32 ∧
      0x03FFF807#32 &&& 0xFC0007FF#32 = 0x00000007#32 ∧
      0x461FFFC3#32 &&& 0xFFE0003F#32 = 0x46000003#32 ∧
      0x4680FFE0#32 &&& 0xFFFF003F#32 = 0x46800020#32 ∧
      0x07E1FFFF#32 &&& 0xFC1F0000#32 = 0x04010000#32 ∧
      0x13FFFFFF#32 &&& 0xFC000000#32 = 0x10000000#32 ∧
      0x03E0F809#32 &&& 0xFC1F07FF#32 = 0x00000009#32 ∧
      0x03FFF7CD#32 &&& 0xFC00083F#32 = 0x0000000D#32 ∧
      0x0BFFFFFF#32 &&& 0xFC000000#32 = 0x08000000#32 ∧
      0x0FFFFFFF#32 &&& 0xFC000000#32 = 0x0C000000#32 ∧
      0x001FFFC0#32 &&& 0xFFE0003F#32 = 0x00000000#32 ∧
      0x001FFFC2#32 &&& 0xFFE0003F#32 = 0x00000002#32 ∧
      0x001FFFC3#32 &&& 0xFFE0003F#32 = 0x00000003#32 ∧
      0x409FF800#32 &&& 0xFFE007FF#32 = 0x40800000#32 ∧
      0x441FF800#32 &&& 0xFFE007FF#32 = 0x44000000#32 ∧
      0x449FF800#32 &&& 0xFFE007FF#32 = 0x44800000#32 := by decide +kernel

/-- The words that AdduSubuResult and AndOrXorResult speak of, every operand bit set. -/
theorem witness_AdduSubuResult_AndOrXorResult_words :
    0x03FFF821#32 &&& 0xFC0007FF#32 = 0x00000021#32 ∧
      0x03FFF823#32 &&& 0xFC0007FF#32 = 0x00000023#32 ∧
      0x03FFF824#32 &&& 0xFC0007FF#32 = 0x00000024#32 ∧
      0x03FFF825#32 &&& 0xFC0007FF#32 = 0x00000025#32 ∧
      0x03FFF826#32 &&& 0xFC0007FF#32 = 0x00000026#32 := by decide +kernel

theorem witness_ImmediateResult :
    0x27FFFFFF#32 &&& 0xFC000000#32 = 0x24000000#32 ∧
      0x33FFFFFF#32 &&& 0xFC000000#32 = 0x30000000#32 ∧
      0x3C1FFFFF#32 &&& 0xFFE00000#32 = 0x3C000000#32 ∧
      0x3C200001#32 &&& 0xFC000000#32 = 0x3C000000#32 ∧
      0x37FFFFFF#32 &&& 0xFC000000#32 = 0x34000000#32 ∧
      0x3BFFFFFF#32 &&& 0xFC000000#32 = 0x38000000#32 ∧
      (0x3C200001#32).extractLsb' 21 5 ≠ 0#5 := by decide +kernel

theorem witness_HiLoMoves :
    0x0000F810#32 &&& 0xFFFF07FF#32 = 0x00000010#32 ∧
      0x03E00011#32 &&& 0xFC1FFFFF#32 = 0x00000011#32 ∧
      0x0000F812#32 &&& 0xFFFF07FF#32 = 0x00000012#32 ∧
      0x03E00013#32 &&& 0xFC1FFFFF#32 = 0x00000013#32 := by decide +kernel

theorem witness_ImmediateShifts :
    0x001FFFC0#32 &&& 0xFFE0003F#32 = 0x00000000#32 ∧
      0x001FFFC2#32 &&& 0xFFE0003F#32 = 0x00000002#32 ∧
      0x001FFFC3#32 &&& 0xFFE0003F#32 = 0x00000003#32 := by decide +kernel

theorem witness_JumpResult :
    0x0BFFFFFF#32 &&& 0xFC000000#32 = 0x08000000#32 := by decide +kernel

theorem witness_StepRunsDecodedInstruction :
    let s := launch.storeWord 0x00400000 0x00221820
    ¬ InterruptDue s ∧ Granted s .word .fetch s.pc ∧ HoldsBytes s s.pc 0x00 0x22 0x18 0x20 ∧
      decodeBytes s.cfg.byteOrder [0x00, 0x22, 0x18, 0x20] = .instr (.add 3 1 2) [] := by decide +kernel

/-- The last word of the address space; the bytes were laid down big-endian, so they read the other way round. -/
theorem witness_StepRunsDecodedInstruction_last_word :
    let s := little ({ launch with pc := 0xFFFFFFFC }.storeWord 0xFFFFFFFC 0x00221820)
    ¬ InterruptDue s ∧ Granted s .word .fetch s.pc ∧ HoldsBytes s s.pc 0x00 0x22 0x18 0x20 := by decide +kernel

/-- The highest line, and the lowest software request. -/
theorem witness_StepTakesDueInterrupt :
    InterruptDue { withStatus 0x00008001 with irqIn := [0x20] } ∧ InterruptDue { withStatus 0x00000101 with cause := ⟨0, 1, 0, 0⟩ } := by decide +kernel

/-- One byte off a word, and the first banned address. -/
theorem witness_FetchOutcomesWithoutAnInstruction_denied :
    ¬ InterruptDue launch ∧ Denied { launch with pc := 0x00400001 } .word .fetch 0x00400001 ∧
      Denied userAtBan .word .fetch 0x80000000 ∧ Granted userAtBan .word .fetch 0x7FFFFFFC := by decide +kernel

/-- The first word past memory. -/
theorem witness_FetchOutcomesWithoutAnInstruction_missing :
    let s := withCfg smallMemory { launch with pc := 0x1000 }
    ¬ InterruptDue s ∧ Missing s .word .fetch s.pc ∧ Granted s .word .fetch 0x0FFC := by decide +kernel

theorem witness_FetchOutcomesWithoutAnInstruction_reserved :
    let s := launch.storeWord 0x00400000 0xFFFFFFFF
    ¬ InterruptDue s ∧ Granted s .word .fetch s.pc ∧ HoldsBytes s s.pc 0xFF 0xFF 0xFF 0xFF ∧
      decodeWord (wordOfBytes s.cfg.byteOrder 0xFF 0xFF 0xFF 0xFF) = none := by decide +kernel

theorem witness_StepKeepsParametersAndConsumesInputs :
    steps (launch.storeWord 0x00400000 0x00221820) = true ∧ steps { withStatus 0x401 with irqIn := [1, 2] } = true := by decide +kernel

/-- For ControlStateFrame, GeneralRegisterFrame, FloatAndHiLoFrame, MemoryFrame: each way the control state may change; a
store to the last word. -/
theorem witness_frames :
    completes (.add 3 1 2) launch = true ∧ completes .syscall launch = true ∧ completes .rfe launch = true ∧
      completes (.mtc0 5 12) launch = true ∧ completes (.mtc0 5 13) launch = true ∧
      completes (.sw 5 4 0xFFFC) launch = true ∧ storedRange (.sw 5 4 0xFFFC) launch = some (0xFFFFFFFC, 4) ∧
      storedRange (.add 3 1 2) launch = none ∧ gprWritten (.add 3 1 2) ≠ some 1 ∧ fprWritten (.add 3 1 2) ≠ some 3 ∧
      writesHi (.mtlo 1) = false ∧ writesLo (.mthi 1) = false := by decide +kernel

theorem witness_OnlyRegisterJumpsMisalignPc :
    completes (.jr 1) (withRegs [(1, 0x00400102)]) = true ∧ completes (.beq 0 0 0x8000) launch = true ∧
      launch.pc.toNat % 4 = 0 ∧ launch.cfg.exceptionHandler.toNat % 4 = 0 := by decide +kernel

/-- The largest and the smallest result that fits. -/
theorem witness_AddSubAddiCompleteWhenInRange :
    let s := withRegs [(1, 0x7FFFFFFE), (2, 1), (3, 0x80000000), (4, 0)]
    (s.readReg 1).toInt + (s.readReg 2).toInt = 2 ^ 31 - 1 ∧ (s.readReg 3).toInt - (s.readReg 4).toInt = -2 ^ 31 ∧
      (s.readReg 1).toInt + (1#16).toInt = 2 ^ 31 - 1 := by decide +kernel

/-- One past the largest and one below the smallest result, and a sum that fits. -/
theorem witness_AddSubAddiTrapOnOverflow :
    let s := withRegs [(1, 0x7FFFFFFF), (2, 1), (3, 0x80000000)]
    ((s.readReg 1).msb = (s.readReg 2).msb ∧ (s.readReg 1 + s.readReg 2).msb ≠ (s.readReg 1).msb) ∧
      ((s.readReg 3).msb ≠ (s.readReg 2).msb ∧ (s.readReg 3 - s.readReg 2).msb ≠ (s.readReg 3).msb) ∧
      ((s.readReg 3).msb = (0xFFFF#16).msb ∧ (s.readReg 3 + (0xFFFF#16).signExtend 32).msb ≠ (s.readReg 3).msb) ∧
      ¬ ((s.readReg 1).msb = (s.readReg 3).msb) := by decide +kernel

/-- `-2^31 div 1` and `(2^31 - 1) div -1`, under both roundings. -/
theorem witness_SignedDivideResult :
    let s := withRegs [(1, 0x80000000), (2, 1), (3, 0x7FFFFFFF), (4, 0xFFFFFFFF)]
    let floored := withCfg (fun c => { c with divRounding := .floor }) s
    ((s.readReg 2).toInt ≠ 0 ∧ ¬ ((s.readReg 1).toInt = -2 ^ 31 ∧ (s.readReg 2).toInt = -1)) ∧
      ((s.readReg 4).toInt ≠ 0 ∧ ¬ ((s.readReg 3).toInt = -2 ^ 31 ∧ (s.readReg 4).toInt = -1)) ∧
      s.cfg.divRounding = .truncate ∧ floored.cfg.divRounding = .floor := by decide +kernel

/-- `-7 div 2`: -3 remainder -1, or -4 remainder 1. -/
theorem witness_SignedDivideResult_rounding :
    stepsTo (execDiv 1 2 (withRegs [(1, 0xFFFFFFF9), (2, 2)])) (hiLoIs 0xFFFFFFFF 0xFFFFFFFD) = true ∧
      stepsTo (execDiv 1 2 (withCfg (fun c => { c with divRounding := .floor }) (withRegs [(1, 0xFFFFFFF9), (2, 2)])))
        (hiLoIs 1 0xFFFFFFFC) = true := by decide +kernel

theorem witness_UnsignedDivideResult :
    ((withRegs [(2, 0xFFFFFFFF)]).readReg 2).toNat ≠ 0 := by decide +kernel

theorem witness_DivideUnspecifiedLeavesDraws :
    let s := withRegs [(1, 0x80000000), (2, 0), (3, 0xFFFFFFFF)]
    (s.readReg 2).toInt = 0 ∧ (s.readReg 2).toNat = 0 ∧ (s.readReg 1).toInt = -2 ^ 31 ∧ (s.readReg 3).toInt = -1 := by decide +kernel

theorem witness_JrJalJalrResult :
    (31 : GReg) ≠ 1 ∧ completes (.jalr 0 31) launch = true := by decide +kernel

theorem witness_RefusedExactlyOnFormsWithoutMeaning :
    exec (.jalr 1 1) launch = .refused .jalrLinkIsTarget ∧ exec (.mfc0 5 9) launch = .refused (.controlRegisterAbsent 9) ∧
      exec (.mtc0 5 31) launch = .refused (.controlRegisterAbsent 31) ∧
      exec (.mtc0 5 8) launch = .refused (.controlRegisterReadOnly 8) ∧ Cp0Usable launch := ⟨rfl, rfl, rfl, rfl, by decide +kernel⟩

/-- The first byte past memory; a fetch, and a `lw` fetched from the last word of memory (R100). -/
theorem witness_FaultsOnlyOutsideMemValid :
    let s := withCfg smallMemory (withRegs [(4, 0x1000)])
    let u := { s with pc := 0x0FFC }.storeWord 0x0FFC 0x8C850000
    exec (.lbu 5 4 0) s = .fault (.outsideMemValid .load 0x1000) ∧ exec (.sb 5 4 0) s = .fault (.outsideMemValid .store 0x1000) ∧
      step s = .fault (.outsideMemValid .fetch 0x00400000) ∧ step u = .fault (.outsideMemValid .load 0x1000) := ⟨rfl, rfl, rfl, rfl⟩

/-- The last word and the last byte of the address space. -/
theorem witness_LoadsReturnTheBytesOfMemory :
    let s := (withRegs [(4, 0xFFFFFFFC)]).storeWord 0xFFFFFFFC 0x11223384
    Granted s .word .load (s.ea 4 0) ∧ HoldsBytes s (s.ea 4 0) 0x11 0x22 0x33 0x84 ∧ Cp1Usable s ∧
      Granted s .byte .load (s.ea 4 3) ∧ s.mem.readByte (s.ea 4 3).toNat = some 0x84 := by decide +kernel

/-- No byte is written. -/
theorem witness_LoadsCompleteOnAnyMemory :
    let s := withRegs [(4, 0x1000)]
    Granted s .word .load (s.ea 4 0) ∧ Granted s .byte .load (s.ea 4 3) ∧ Cp1Usable s ∧ s.mem.readByte 0x1000 = none := by decide +kernel

/-- The last word and the last byte of memory. -/
theorem witness_StoresWriteTheirBytes :
    let s := withCfg smallMemory (withRegs [(4, 0x1000)])
    Granted s .word .store (s.ea 4 0xFFFC) ∧ Granted s .byte .store (s.ea 4 0xFFFF) ∧ Cp1Usable s := by decide +kernel

/-- The word itself, and its last byte by another base. -/
theorem witness_StoreThenLoad :
    let s := withRegs [(4, 0x1000), (5, 0xDEADBEEF), (6, 0x1003)]
    Granted s .word .store (s.ea 4 0) ∧ ∃ t, exec (.sw 5 4 0) s = .next t ∧ (t.ea 4 0).toNat = byteAddress (s.ea 4 0) 0 ∧
      Granted t .word .load (t.ea 4 0) ∧ (t.ea 6 0).toNat = byteAddress (s.ea 4 0) 3 ∧ Granted t .byte .load (t.ea 6 0) := ⟨by decide +kernel, _, rfl, by decide +kernel, by decide +kernel, by decide +kernel, by decide +kernel⟩

/-- One and three bytes off a word; the first banned byte, and the last allowed one. -/
theorem witness_DataAddressErrors :
    let s := withRegs [(4, 0x1000)]
    Denied s .word .load (s.ea 4 1) ∧ Denied s .word .store (s.ea 4 3) ∧ Cp1Usable s ∧
      Denied userAtBan .byte .load (userAtBan.ea 4 0) ∧ Denied userAtBan .byte .store (userAtBan.ea 4 0) ∧
      ¬ Denied userAtBan .byte .load (userAtBan.ea 4 0xFFFF) ∧ Cp1Usable userAtBan := by decide +kernel

/-- The first address past memory. -/
theorem witness_OutsideMemValidIsStuck :
    let s := withCfg smallMemory (withRegs [(4, 0x1000)])
    Missing s .word .load (s.ea 4 0) ∧ Missing s .byte .load (s.ea 4 0) ∧ Missing s .word .store (s.ea 4 0) ∧
      Missing s .byte .store (s.ea 4 0) ∧ Cp1Usable s := by decide +kernel

/-- Both records, and the conversions of V185, V186 and V192; one below -2^31. -/
theorem witness_FloatComputesItsRecord :
    let s := withCfg (fun c => { c with fp := .platform }) (launch.writeFReg 2 0x4F000000)
    Cp1Usable launch ∧ launch.cfg.fp = .ieeeRne ∧ Cp1Usable s ∧ s.cfg.fp = .platform ∧
      InvalidCvtWS (s.readFReg 2) ∧ ¬ InvalidCvtWS 0x4EFFFFFF ∧ ¬ InvalidCvtWS 0xCF000000 ∧ InvalidCvtWS 0xCF000001 ∧
      InvalidDiv (s.readFReg 4) (s.readFReg 4) ∧ ¬ InvalidDiv (s.readFReg 4) (s.readFReg 2) := by decide +kernel

/-- R169 under a platform record: V163, V193 and the other invalid operations. -/
theorem witness_FloatComputesItsRecord_invalid :
    fpAdd .platform 0x7F800000 0xFF800000 0xFFFFFFFF = 0xFFFFFFFF ∧ fpSub .platform 0x7F800000 0x7F800000 0xFF800001 = 0xFF800001 ∧
      fpMul .platform 0x80000000 0x7F800000 0x7FC00000 = 0x7FC00000 ∧ fpDiv .platform 0x00000000 0x80000000 0x7F800001 = 0x7F800001 ∧
      fpCvtWS .platform 0x7FC00000 0x12345678 = 0x12345678 := by decide +kernel

/-- V150, V154, V156, V159, V175, V151; the zeros of both signs; the largest finite pattern. -/
theorem witness_FloatExactResults :
    (FpFinite 0x3FC00000 ∧ FpFinite 0x40100000 ∧ FpFinite 0x40700000 ∧ fpUnits 0x40700000 ≠ 0) ∧
      fpUnits 0x40700000 = fpUnits 0x3FC00000 + fpUnits 0x40100000 ∧
      fpUnits 0xBF400000 = fpUnits 0x3FC00000 - fpUnits 0x40100000 ∧
      fpUnits 0xC0400000 * 2 ^ 149 = fpUnits 0x3FC00000 * fpUnits 0xC0000000 ∧
      fpUnits 0x3E800000 * fpUnits 0x40800000 = fpUnits 0x3F800000 * 2 ^ 149 ∧ fpUnits 0x40800000 ≠ 0 ∧
      fpUnits 0xCF000000 = (0x80000000#32).toInt * 2 ^ 149 ∧ fpUnits 0x3F800000 + fpUnits 0xBF800000 = 0 ∧
      fpUnits 0x80000000 = fpUnits 0x00000000 ∧ fpUnits 0x7F7FFFFF + fpUnits 0x00000000 = fpUnits 0x7F7FFFFF := by decide +kernel

/-- The largest and the smallest finite pattern; an overflow, and two ties among the subnormals (IEEE 754 by hand). -/
theorem witness_FloatRoundsToNearestEven :
    FpFinite 0x7F7FFFFF ∧ FpFinite 0x00000001 ∧ fpUnits 0x7F7FFFFF + fpUnits 0x00000001 ≠ 0 ∧
      fpUnits 0x7F7FFFFF - fpUnits 0x00000001 ≠ 0 ∧ fpMagUnits 0x00000001 ≠ 0 ∧
      ieeeAdd 0x7F7FFFFF 0x7F7FFFFF 0 = 0x7F800000 ∧ ieeeMul 0x00000001 0x3F000000 0 = 0 ∧
      ieeeMul 0x00000003 0x3F000000 0 = 0x00000002 := by decide +kernel

/-- The patterns where an operation begins to be invalid. -/
theorem witness_FloatSpecialValues_invalid :
    (InvalidAdd 0x7F800000 0xFF800000 ∧ ¬ InvalidAdd 0x7F800000 0x7F800000 ∧ InvalidSub 0x7F800000 0x7F800000 ∧
      ¬ InvalidSub 0x7F7FFFFF 0x7F800000) ∧ (InvalidMul 0x80000000 0x7F800000 ∧ InvalidMul 0x7F800000 0x00000000 ∧
      ¬ InvalidMul 0x00000001 0x7F800000) ∧ (InvalidDiv 0x00000000 0x80000000 ∧ ¬ InvalidDiv 0x00000001 0x00000000 ∧
      InvalidDiv 0x7F800000 0x7F800001) := by decide +kernel

/-- V151, and the patterns where each clause begins. -/
theorem witness_FloatSpecialValues :
    fpIsNaN 0x7F800001 = true ∧ fpIsInf 0xFF800000 = true ∧ fpIsInf 0x7F800000 = true ∧
      FpFinite 0x7F7FFFFF ∧ fpIsZero 0x80000000 = true ∧ fpIsZero 0x00000001 = false ∧
      fpUnits 0x3F800000 + fpUnits 0xBF800000 = 0 ∧ fpUnits 0x00000000 - fpUnits 0x80000000 = 0 ∧
      ieeeAdd 0x3F800000 0xBF800000 0xFFFFFFFF = 0x00000000 := by decide +kernel

/-- Kernel mode, and user mode with every other bit set. -/
theorem witness_Cp1UnusableRaises :
    (withStatus 0).status.getLsbD 29 = false ∧ (withStatus 0xDFFFFFFF).status.getLsbD 29 = false := by decide +kernel

theorem witness_Cp0UnusableRaises :
    (withStatus 0xEFFFFFFF).status.getLsbD 1 = true ∧ (withStatus 0xEFFFFFFF).status.getLsbD 28 = false := by decide +kernel

/-- For Mfc0ReadsControlRegisters, Mtc0WritesStatusAndCause, RfePopsTheStatusStack: kernel mode, and user mode with CU0. -/
theorem witness_cp0_usable :
    Cp0Usable (withStatus 0) ∧ Cp0Usable (withStatus 0x10000002) := by decide +kernel

theorem witness_Mfc1Mtc1MoveBits :
    Cp1Usable (withStatus 0x20000002) := by decide +kernel

theorem witness_RegisterZeroIsHardwired :
    let ordinary := withCfg (fun c => { c with r0Zero := false }) launch
    launch.cfg.r0Zero = true ∧ gprWritten (.mfhi 0) = some 0 ∧ completes (.mfhi 0) launch = true ∧
      ordinary.cfg.r0Zero = false ∧ ordinary.readReg 1 = 0 := by decide +kernel

/-- A store. -/
theorem witness_StepKeepsTheInvariant :
    (launch.storeWord 0x00400000 0xAC850008).Inv ∧ steps (launch.storeWord 0x00400000 0xAC850008) = true := ⟨⟨by decide +kernel, by decide +kernel, by decide +kernel, by decide +kernel⟩, by decide +kernel⟩

/-- `mtc0` to Status in user mode. -/
theorem witness_UserModeCannotTouchControlState :
    let s := (withStatus 0x2).storeWord 0x00400000 0x40856000
    s.mode = .user ∧ s.status.getLsbD 28 = false ∧ steps s = true := by decide +kernel

theorem witness_OnlyRfeAndMtc0EnterUserMode :
    after 0x42000010 (withStatus 0x8) (fun t => t.mode == .user) = true ∧ (withStatus 0x8).mode = .kernel ∧
      after 0x40856000 (withRegs [(5, 2)]) (fun t => t.mode == .user) = true ∧ launch.mode = .kernel := by decide +kernel

end Sys2Proof.Tests
end

/-! # Proofs for spec/10_state.md

What executing an instruction can do is said once (`ExecEffect`, `exec_effect`); the frames, the invariant and the rules
about the program counter are read off it. -/

namespace Sys2Proof.Machine

/-! ## Aligned addresses (R24, R42, R47) -/

theorem isAligned_iff (a : Word) : isAligned a = true ↔ a.toNat % 4 = 0 := by
  simp only [isAligned, beq_iff_eq, ← BitVec.toNat_inj, BitVec.extractLsb'_toNat]
  simp

theorem alignedFor_iff (w : Width) (a : Word) : alignedFor w a = true ↔ (w = .word → a.toNat % 4 = 0) := by
  cases w with
  | byte => simp [alignedFor]
  | word => simp [alignedFor, isAligned_iff]

/-- The checks of R45 pass in the words of the statements. -/
theorem checkAccess_eq_ok_iff_granted {s : State} {w : Width} {k : AccessKind} {a : Word} :
    checkAccess s w k a = .ok ↔ Granted s w k a := by
  rw [checkAccess_eq_ok, alignedFor_iff]

/-- The bytes of an aligned word lie next to each other: no address wraps (R42). -/
theorem byteAddress_of_aligned {a : Word} (ha : a.toNat % 4 = 0) {k : Nat} (hk : k < 4) :
    byteAddress a k = a.toNat + k := by
  simp only [byteAddress, BitVec.toNat_add, BitVec.toNat_ofNat]
  omega

/-- MEM_VALID answers alike for all bytes of an aligned word (R43). -/
theorem memValidAt_congr (c : Config) {a b : Nat} (h : a / 4 = b / 4) : memValidAt c a = memValidAt c b := by
  simp [memValidAt, rangeHolds, h]

/-- A word access that passes its checks lies in MEM_VALID with all its four bytes (R43). -/
theorem memValidAt_byteAddress {s : State} {k : AccessKind} {a : Word} (h : checkAccess s .word k a = .ok) {j : Nat}
    (hj : j < 4) : memValidAt s.cfg (byteAddress a j) = true := by
  obtain ⟨haligned, -, hvalid⟩ := checkAccess_eq_ok_iff_granted.1 h
  rw [byteAddress_of_aligned (haligned rfl) hj, ← hvalid]
  exact memValidAt_congr _ (by have := haligned rfl; omega)

theorem following_aligned {pc : Word} (h : pc.toNat % 4 = 0) : (pc + 4).toNat % 4 = 0 := by
  rw [BitVec.toNat_add, show (4 : Word).toNat = 4 from rfl]
  omega

/-- The offset of a branch is a multiple of 4 (R64). -/
theorem branchOffset_aligned (imm : Imm16) : (branchOffset imm).toNat % 4 = 0 := by
  have happend : (imm ++ 0#2).toNat = imm.toNat * 4 := by rw [BitVec.toNat_append, Nat.shiftLeft_eq]; simp
  rw [branchOffset, BitVec.toNat_signExtend, BitVec.toNat_setWidth, happend]
  split <;> omega

/-- A branch from an aligned address goes to an aligned address (R176). -/
theorem branchTarget_aligned {pc : Word} (h : pc.toNat % 4 = 0) (imm : Imm16) :
    (branchTarget pc imm).toNat % 4 = 0 := by
  have hoffset := branchOffset_aligned imm
  have hnext := following_aligned h
  rw [branchTarget, BitVec.toNat_add]
  omega

/-- `j` and `jal` go to an aligned address (R182, R184). -/
theorem jumpTarget_aligned (pc : Word) (target : Target) : (jumpTarget pc target).toNat % 4 = 0 := by
  rw [jumpTarget, BitVec.toNat_append, Nat.shiftLeft_eq]
  simp

/-! ## Everything an instruction can do -/

/-- The addresses an instruction that completes can leave in the program counter (R24, R176, R182 to R185). -/
inductive NextPc (i : Instr) (s : State) : Word → Prop
  | following : NextPc i s (s.pc + 4)
  | branch (imm : Imm16) : NextPc i s (branchTarget s.pc imm)
  | jump (target : Target) : NextPc i s (jumpTarget s.pc target)
  | jr {rs : GReg} (h : i = .jr rs) : NextPc i s (s.readReg rs)
  | jalr {rd rs : GReg} (h : i = .jalr rd rs) : NextPc i s (s.readReg rs)

/-- The next states of an instruction, by the one kind of state it writes besides the program counter and the number of
draws. `exec_effect` ties it to `exec`. -/
inductive ExecEffect (i : Instr) (s : State) : State → Prop
  | trap {e : Exception} (h : mayRaise i s e) : ExecEffect i s (trapEntry e s)
  | gpr {r : GReg} (h : gprWritten i = some r) (v : Word) (n : Nat) {target : Word} (hpc : NextPc i s target) :
    ExecEffect i s (((s.skipDraws n).writeReg r v).setPc target)
  | fpr {r : FReg} (h : fprWritten i = some r) (v : Word) (n : Nat) :
    ExecEffect i s ((s.writeFReg r v).skipDraws n).advance
  | hiLo {hi lo : Word} (hhi : writesHi i = false → hi = s.hi) (hlo : writesLo i = false → lo = s.lo) (n : Nat) :
    ExecEffect i s ((s.setHiLo hi lo).skipDraws n).advance
  | storeWord {a : Word} (h : storedRange i s = some (a, 4)) (hok : checkAccess s .word .store a = .ok) (v : Word) :
    ExecEffect i s (s.storeWord a v).advance
  | storeByte {a : Word} (h : storedRange i s = some (a, 1)) (hok : checkAccess s .byte .store a = .ok) (b : Byte) :
    ExecEffect i s (s.storeByte a b).advance
  | jump {target : Word} (hpc : NextPc i s target) : ExecEffect i s (s.setPc target)
  | trapReturn (h : i = .rfe) (hcp0 : s.cp0Usable = true) : ExecEffect i s s.trapReturn.advance
  | status {rt : GReg} (h : i = .mtc0 rt 12) (hcp0 : s.cp0Usable = true) :
    ExecEffect i s (s.writeStatus (s.readReg rt)).advance
  | cause {rt : GReg} (h : i = .mtc0 rt 13) (hcp0 : s.cp0Usable = true) :
    ExecEffect i s (s.writeCause (s.readReg rt)).advance

section
variable {i : Instr} {s t : State}

/-! One lemma per shared ending and per shared check, so that `exec_effect` names the ending of each instruction. -/

theorem effect_of_raise {e : Exception} (hraise : mayRaise i s e) (h : raise e s = .next t) : ExecEffect i s t :=
  raise_eq_next.1 h ▸ .trap hraise

/-- `skipDraws 0` is the state itself, so this covers the endings that draw nothing. -/
theorem effect_of_finishReg {n : Nat} {r : GReg} {v : Word} (hr : gprWritten i = some r)
    (h : finishReg (s.skipDraws n) r v = .next t) : ExecEffect i s t := by
  rw [finishReg_eq_next] at h
  have hadvance : ((s.skipDraws n).writeReg r v).advance = ((s.skipDraws n).writeReg r v).setPc (s.pc + 4) := by
    simp [State.advance]
  exact h ▸ hadvance ▸ .gpr hr v n .following

theorem effect_of_finishTrapping {o : Bool} {r : GReg} {v : Word} (hr : gprWritten i = some r)
    (hraise : mayRaise i s .overflow) (h : finishTrapping s o r v = .next t) : ExecEffect i s t := by
  obtain ⟨-, h⟩ | ⟨-, h⟩ := finishTrapping_eq_next.1 h
  · exact h ▸ .trap hraise
  · exact effect_of_finishReg (n := 0) hr (finishReg_eq_next.2 h)

theorem effect_of_finishFloat {r : FReg} {v : Word} (hr : fprWritten i = some r)
    (h : finishFloat s r v = .next t) : ExecEffect i s t :=
  finishFloat_eq_next.1 h ▸ .fpr hr v 1

theorem effect_of_finishHiLo {hi lo : Word} (hhi : writesHi i = false → hi = s.hi)
    (hlo : writesLo i = false → lo = s.lo) (h : finishHiLo s hi lo = .next t) : ExecEffect i s t :=
  finishHiLo_eq_next.1 h ▸ .hiLo hhi hlo 0

/-- A division writes HI and LO, with its results or with draws (R113, R117). -/
theorem effect_of_division {p : Prop} [Decidable p] {hi lo : Word} (hhi : writesHi i = true) (hlo : writesLo i = true)
    (h : (if p then finishHiLoDrawn s else finishHiLo s hi lo) = .next t) : ExecEffect i s t := by
  split at h
  · exact finishHiLoDrawn_eq_next.1 h ▸ .hiLo (by simp [hhi]) (by simp [hlo]) 2
  · exact effect_of_finishHiLo (by simp [hhi]) (by simp [hlo]) h

theorem effect_of_finishBranch {taken : Bool} {imm : Imm16} (h : finishBranch s taken imm = .next t) :
    ExecEffect i s t := by
  obtain ⟨-, h⟩ | ⟨-, h⟩ := finishBranch_eq_next.1 h
  · exact h ▸ .jump (.branch imm)
  · exact h ▸ .jump .following

theorem effect_of_withAccess {w : Width} {k : AccessKind} {a : Word} {r : Result}
    (h : withAccess s w k a r = .next t) (hraise : mayRaise i s (addressError k a))
    (hgo : checkAccess s w k a = .ok → r = .next t → ExecEffect i s t) : ExecEffect i s t := by
  obtain ⟨hok, h⟩ | ⟨-, h⟩ := withAccess_eq_next.1 h
  · exact hgo hok h
  · exact h ▸ .trap hraise

theorem effect_of_withCp0 {k : State → Result} (h : withCp0 s k = .next t)
    (hraise : mayRaise i s (.coprocessorUnusable 0))
    (hgo : s.cp0Usable = true → k s = .next t → ExecEffect i s t) : ExecEffect i s t := by
  obtain ⟨hcp0, h⟩ | ⟨-, h⟩ := withCp0_eq_next.1 h
  · exact hgo hcp0 h
  · exact h ▸ .trap hraise

theorem effect_of_withCp1 {k : State → Result} (h : withCp1 s k = .next t)
    (hraise : mayRaise i s (.coprocessorUnusable 1)) (hgo : k s = .next t → ExecEffect i s t) : ExecEffect i s t := by
  obtain ⟨-, h⟩ | ⟨-, h⟩ := withCp1_eq_next.1 h
  · exact hgo h
  · exact h ▸ .trap hraise

theorem effect_of_mfc0 {rt : GReg} {cd : CReg} (h : exec (.mfc0 rt cd) s = .next t) :
    ExecEffect (.mfc0 rt cd) s t := by
  simp only [exec, execMfc0] at h
  refine effect_of_withCp0 h rfl fun _ h => ?_
  cases hread : s.readControl cd with
  | none => simp [hread] at h
  | some v =>
    simp only [hread] at h
    exact effect_of_finishReg rfl h

theorem effect_of_mtc0 {rt : GReg} {cd : CReg} (h : exec (.mtc0 rt cd) s = .next t) :
    ExecEffect (.mtc0 rt cd) s t := by
  simp only [exec, execMtc0] at h
  refine effect_of_withCp0 h rfl fun hcp0 h => ?_
  split at h
  · next hcd => exact next_inj.1 h ▸ hcd ▸ .status rfl hcp0
  · split at h
    · next hcd => exact next_inj.1 h ▸ hcd ▸ .cause rfl hcp0
    · split at h <;> exact absurd h refused_ne_next

theorem effect_of_jalr {rd rs : GReg} (h : exec (.jalr rd rs) s = .next t) : ExecEffect (.jalr rd rs) s t := by
  simp only [exec, execJalr] at h
  split at h
  · exact absurd h refused_ne_next
  · exact next_inj.1 h ▸ .gpr rfl (s.pc + 4) 0 (.jalr rfl)

/-- Everything an instruction can do when it has a next state. -/
theorem exec_effect (h : exec i s = .next t) : ExecEffect i s t := by
  cases i with
  | lw | lb | lbu => exact effect_of_withAccess h rfl fun _ h => effect_of_finishReg rfl h
  | sw => exact effect_of_withAccess h rfl fun hok h => next_inj.1 h ▸ .storeWord rfl hok _
  | sb => exact effect_of_withAccess h rfl fun hok h => next_inj.1 h ▸ .storeByte rfl hok _
  | add | sub | addi => exact effect_of_finishTrapping rfl rfl h
  | addu | subu | and | nor | or | xor | addiu | andi | lui | ori | xori | mfhi | mflo | sll | srl | sra | sllv | srlv
  | srav | slt | slti => exact effect_of_finishReg (n := 0) rfl h
  | mult | multu => exact effect_of_finishHiLo nofun nofun h
  | div | divu => exact effect_of_division rfl rfl h
  | mthi => exact effect_of_finishHiLo nofun (fun _ => rfl) h
  | mtlo => exact effect_of_finishHiLo (fun _ => rfl) nofun h
  | lwc1 =>
    simp only [exec, execLwc1] at h
    exact effect_of_withCp1 h (.inl rfl) fun h =>
      effect_of_withAccess h (.inr rfl) fun _ h => next_inj.1 h ▸ .fpr rfl _ 1
  | swc1 =>
    simp only [exec, execSwc1] at h
    exact effect_of_withCp1 h (.inl rfl) fun h =>
      effect_of_withAccess h (.inr rfl) fun hok h => next_inj.1 h ▸ .storeWord rfl hok _
  | addS | subS | mulS | divS | cvtSW | cvtWS =>
    simp only [exec, execAddS, execSubS, execMulS, execDivS, execCvtSW, execCvtWS] at h
    exact effect_of_withCp1 h rfl fun h => effect_of_finishFloat rfl h
  | bltz | bgez | blez | bgtz | beq | bne => exact effect_of_finishBranch h
  | j target => exact next_inj.1 h ▸ .jump (.jump target)
  | jr => exact next_inj.1 h ▸ .jump (.jr rfl)
  | jal target => exact next_inj.1 h ▸ .gpr rfl (s.pc + 4) 0 (.jump target)
  | jalr => exact effect_of_jalr h
  | syscall | brk => exact effect_of_raise rfl h
  | rfe =>
    simp only [exec, execRfe] at h
    exact effect_of_withCp0 h rfl fun hcp0 h => next_inj.1 h ▸ .trapReturn rfl hcp0
  | mfc0 => exact effect_of_mfc0 h
  | mtc0 => exact effect_of_mtc0 h
  | mfc1 =>
    simp only [exec, execMfc1] at h
    exact effect_of_withCp1 h rfl fun h => effect_of_finishReg (n := 0) rfl h
  | mtc1 =>
    simp only [exec, execMtc1] at h
    exact effect_of_withCp1 h rfl fun h => next_inj.1 h ▸ .fpr rfl _ 0

/-! ## What an instruction leaves unchanged -/

/-- No instruction writes the parameters or the lines (R29, R39). -/
theorem ExecEffect.sameInputs (h : ExecEffect i s t) : SameInputs s t := by
  cases h <;> simp [SameInputs]

theorem ExecEffect.draws_le (h : ExecEffect i s t) : s.draws ≤ t.draws := by
  cases h <;> simp

/-- A general register is written by the `gpr` effect alone, and then it is the destination (R20, R22). -/
theorem ExecEffect.readReg_eq (h : ExecEffect i s t) {r : GReg} (hr : gprWritten i ≠ some r) :
    t.readReg r = s.readReg r := by
  cases h with
  | gpr hd v n hpc =>
    have hne : r ≠ _ := fun heq => hr (heq ▸ hd)
    simp [hne]
  | _ => simp

/-- A floating point register is written by the `fpr` effect alone, and then it is the destination (R26). -/
theorem ExecEffect.readFReg_eq (h : ExecEffect i s t) {r : FReg} (hr : fprWritten i ≠ some r) :
    t.readFReg r = s.readFReg r := by
  cases h with
  | fpr hd v n =>
    have hne : r ≠ _ := fun heq => hr (heq ▸ hd)
    simp [hne]
  | _ => simp

theorem ExecEffect.hi_eq (h : ExecEffect i s t) (hwrites : writesHi i = false) : t.hi = s.hi := by
  cases h with
  | hiLo hhi hlo n => exact hhi hwrites
  | _ => simp

theorem ExecEffect.lo_eq (h : ExecEffect i s t) (hwrites : writesLo i = false) : t.lo = s.lo := by
  cases h with
  | hiLo hhi hlo n => exact hlo hwrites
  | _ => simp

/-- An instruction traps to the handler, or leaves one of the addresses of `NextPc`. -/
theorem ExecEffect.pc_cases (h : ExecEffect i s t) : t.pc = s.cfg.exceptionHandler ∨ NextPc i s t.pc := by
  cases h with
  | trap _ => exact .inl rfl
  | gpr _ _ _ hpc | jump hpc => exact .inr hpc
  | _ => exact .inr .following

/-- From an aligned program counter only the two register jumps reach a misaligned one (R24). -/
theorem NextPc.aligned_or_register {a : Word} (h : NextPc i s a) (hpc : s.pc.toNat % 4 = 0) :
    a.toNat % 4 = 0 ∨ (∃ rs, i = .jr rs ∧ a = s.readReg rs) ∨ (∃ rd rs, i = .jalr rd rs ∧ a = s.readReg rs) := by
  cases h with
  | following => exact .inl (following_aligned hpc)
  | branch imm => exact .inl (branchTarget_aligned hpc imm)
  | jump target => exact .inl (jumpTarget_aligned _ target)
  | jr hi => exact .inr (.inl ⟨_, hi, rfl⟩)
  | jalr hi => exact .inr (.inr ⟨_, _, hi, rfl⟩)

/-- A step takes an exception, or executes the instruction it decoded, on the state whose lines are sampled (R203). -/
theorem step_trap_or_effect (h : step s = .next t) :
    (∃ e, t = trapEntry e s.beginStep) ∨
      ∃ i, decodeWord s.beginStep.fetchedWord = some i ∧ ExecEffect i s.beginStep t := by
  obtain ⟨-, h⟩ | ⟨-, -, h⟩ | ⟨-, -, -, h⟩ | ⟨-, -, i, hdec, hexec⟩ := step_eq_next.1 h
  · exact .inl ⟨_, h.symm⟩
  · exact .inl ⟨_, h.symm⟩
  · exact .inl ⟨_, h.symm⟩
  · exact .inr ⟨i, hdec, exec_effect hexec⟩

/-! ## The invariant -/

/-- A state that shares parameters, memory and general registers with one that satisfies the invariant, and whose BD is
0, satisfies it. -/
theorem State.Inv.transfer (hs : s.Inv) (hcfg : t.cfg = s.cfg) (hmem : t.mem = s.mem) (hregs : t.regs = s.regs)
    (hbd : t.cause.bd = 0) : t.Inv where
  memoryCanonical := hmem ▸ hs.memoryCanonical
  memoryExists := by rw [hcfg, hmem]; exact hs.memoryExists
  zeroRegister := by simpa only [hcfg, hregs] using hs.zeroRegister
  noDelaySlot := hbd

theorem State.Inv.beginStep (hs : s.Inv) : s.beginStep.Inv := hs.transfer rfl rfl rfl hs.noDelaySlot

theorem State.Inv.trapEntry (hs : s.Inv) (e : Exception) : (trapEntry e s).Inv := hs.transfer rfl rfl rfl rfl

theorem State.Inv.setPc (hs : s.Inv) (a : Word) : (s.setPc a).Inv := hs.transfer rfl rfl rfl hs.noDelaySlot

theorem State.Inv.advance (hs : s.Inv) : s.advance.Inv := hs.setPc _

theorem State.Inv.skipDraws (hs : s.Inv) (n : Nat) : (s.skipDraws n).Inv := hs.transfer rfl rfl rfl hs.noDelaySlot

/-- Under R0_ZERO no write reaches register 0 (R21). -/
theorem writeReg_regs_zero (hzero : s.cfg.r0Zero = true) (r : GReg) (v : Word) :
    (s.writeReg r v).regs[0] = s.regs[0] := by
  unfold State.writeReg
  split
  · rfl
  · next hfree =>
    have hne : r.toNat ≠ 0 := fun h => hfree (by
      simp [State.hardwired, hzero, BitVec.eq_of_toNat_eq (y := 0#5) h])
    simp [hne]

theorem State.Inv.writeReg (hs : s.Inv) (r : GReg) (v : Word) : (s.writeReg r v).Inv where
  memoryCanonical := by simpa using hs.memoryCanonical
  memoryExists := by simpa using hs.memoryExists
  zeroRegister := fun hzero => by
    rw [writeReg_cfg] at hzero
    rw [writeReg_regs_zero hzero, hs.zeroRegister hzero]
  noDelaySlot := by simpa using hs.noDelaySlot

/-- A word store that passes its checks writes inside MEM_VALID (R43). -/
theorem State.Inv.storeWord (hs : s.Inv) {a : Word} (hok : checkAccess s .word .store a = .ok) (v : Word) :
    (s.storeWord a v).Inv where
  memoryCanonical := wf_writeWord _ _ _ _ hs.memoryCanonical
  memoryExists := fun c hc => by
    obtain ⟨k, hk, hat⟩ | hold := mem_writeWord _ _ _ _ c hc
    · exact hat ▸ memValidAt_byteAddress hok hk
    · exact hs.memoryExists c hold
  zeroRegister := hs.zeroRegister
  noDelaySlot := hs.noDelaySlot

/-- A byte store that passes its checks writes inside MEM_VALID (R43). -/
theorem State.Inv.storeByte (hs : s.Inv) {a : Word} (hok : checkAccess s .byte .store a = .ok) (b : Byte) :
    (s.storeByte a b).Inv where
  memoryCanonical := wf_writeByte _ _ _ (byteAddress_lt a 0) hs.memoryCanonical
  memoryExists := fun c hc => by
    obtain rfl | hold := mem_writeByte _ _ _ c hc
    · simpa using (checkAccess_eq_ok_iff_granted.1 hok).2.2
    · exact hs.memoryExists c hold
  zeroRegister := hs.zeroRegister
  noDelaySlot := hs.noDelaySlot

theorem ExecEffect.inv (h : ExecEffect i s t) (hs : s.Inv) : t.Inv := by
  cases h with
  | trap _ => exact hs.trapEntry _
  | gpr _ v n _ => exact ((hs.skipDraws n).writeReg _ v).setPc _
  | fpr | hiLo | trapReturn | status | cause => exact hs.transfer rfl rfl rfl hs.noDelaySlot
  | storeWord _ hok v => exact (hs.storeWord hok v).advance
  | storeByte _ hok b => exact (hs.storeByte hok b).advance
  | jump _ => exact hs.setPc _

theorem step_inv (hs : s.Inv) (h : step s = .next t) : t.Inv := by
  obtain ⟨e, rfl⟩ | ⟨i, -, heffect⟩ := step_trap_or_effect h
  · exact hs.beginStep.trapEntry e
  · exact heffect.inv hs.beginStep

theorem resetWith_mode (c : Config) : (State.resetWith c).mode = .kernel := by
  simp [State.mode, State.resetWith]

theorem resetWith_interruptEnable (c : Config) : (State.resetWith c).interruptEnable = false := by
  simp [State.interruptEnable, State.resetWith]

/-- Reset lists no byte of memory and holds zero in every register and in BD, whatever the parameters. -/
theorem resetWith_inv (c : Config) : (State.resetWith c).Inv where
  memoryCanonical := rfl
  memoryExists := nofun
  zeroRegister := fun _ => by simp [State.resetWith]
  noDelaySlot := rfl

/-! ## What a write of one register is, in the words of the statements -/

/-- The endings that write one general register; `skipDraws 0` covers those that draw nothing. -/
theorem wroteGpr_setPc (s : State) (n : Nat) (r : GReg) (v target : Word) :
    WroteGpr s (((s.skipDraws n).writeReg r v).setPc target) r v target where
  value := by simp [State.hardwired]
  others := fun q hq => by simp [hq]
  pc := rfl
  hiLo := by simp [SameHiLo]
  floats := fun q => by simp
  memory := fun a => by simp
  control := by simp [SameControl]
  inputs := by simp [SameInputs]

theorem wroteGpr_advance (s : State) (n : Nat) (r : GReg) (v : Word) :
    WroteGpr s ((s.skipDraws n).writeReg r v).advance r v (s.pc + 4) := by
  simpa [State.advance] using wroteGpr_setPc s n r v (s.pc + 4)

/-- The endings that write one floating point register. -/
theorem wroteFpr_advance (s : State) (n : Nat) (r : FReg) (v : Word) :
    WroteFpr s ((s.writeFReg r v).skipDraws n).advance r v where
  value := by simp
  others := fun q hq => by simp [hq]
  pc := rfl
  general := fun q => by simp
  hiLo := by simp [SameHiLo]
  memory := fun a => by simp
  control := by simp [SameControl]
  inputs := by simp [SameInputs]

/-! ## Loads of bytes that may be unwritten (R38, R45) -/

/-- `byteOfWord` in terms of the place the statements speak of (R44). -/
theorem byteOfWord_eq_lane (o : ByteOrder) (w : Word) {k : Nat} (hk : k < 4) :
    byteOfWord o w k = w.extractLsb' (8 * lane o k) 8 := by
  cases o with
  | big =>
    have hplace : 24 - 8 * k = 8 * (3 - k) := by omega
    simp [byteOfWord, lane, hplace]
  | little => rfl

/-- Each byte of a word read is the byte in memory, or the draw's (R38, R44). -/
theorem byteOfWord_readWord (m : Memory) (o : ByteOrder) (a draw : Word) {k : Nat} (hk : k < 4) :
    byteOfWord o (m.readWord o a draw) k = m.byteOr (byteAddress a k) (byteOfWord o draw k) := by
  obtain ⟨h0, h1, h2, h3⟩ := byteOfWord_wordOfBytes o
    (m.byteOr (byteAddress a 0) (byteOfWord o draw 0)) (m.byteOr (byteAddress a 1) (byteOfWord o draw 1))
    (m.byteOr (byteAddress a 2) (byteOfWord o draw 2)) (m.byteOr (byteAddress a 3) (byteOfWord o draw 3))
  interval_cases k
  · exact h0
  · exact h1
  · exact h2
  · exact h3

/-- The bytes of a loaded word that are written come through at their places, whatever the draw. -/
theorem loadedWord_written (s : State) (a : Word) {k : Nat} (hk : k < 4) {b : Byte}
    (hb : s.mem.readByte (byteAddress a k) = some b) :
    (s.loadedWord a).extractLsb' (8 * lane s.cfg.byteOrder k) 8 = b := by
  rw [← byteOfWord_eq_lane _ _ hk, State.loadedWord, byteOfWord_readWord _ _ _ _ hk, Memory.byteOr, hb,
    Option.getD_some]

section Loads
variable (rt rb : GReg) (ft : FReg) (imm : Imm16)

theorem exec_lw_of_granted (h : Granted s .word .load (s.ea rb imm)) :
    exec (.lw rt rb imm) s = .next ((s.skipDraws 1).writeReg rt (s.loadedWord (s.ea rb imm))).advance :=
  withAccess_of_ok _ (checkAccess_eq_ok_iff_granted.2 h)

theorem exec_lb_of_granted (h : Granted s .byte .load (s.ea rb imm)) :
    exec (.lb rt rb imm) s =
      .next ((s.skipDraws 1).writeReg rt ((s.loadedByte (s.ea rb imm)).signExtend 32)).advance :=
  withAccess_of_ok _ (checkAccess_eq_ok_iff_granted.2 h)

theorem exec_lbu_of_granted (h : Granted s .byte .load (s.ea rb imm)) :
    exec (.lbu rt rb imm) s =
      .next ((s.skipDraws 1).writeReg rt ((s.loadedByte (s.ea rb imm)).setWidth 32)).advance :=
  withAccess_of_ok _ (checkAccess_eq_ok_iff_granted.2 h)

theorem exec_lwc1_of_granted (hcp1 : Cp1Usable s) (h : Granted s .word .load (s.ea rb imm)) :
    exec (.lwc1 ft rb imm) s =
      .next ((s.writeFReg ft (s.loadedWord (s.ea rb imm))).skipDraws 1).advance := by
  simp only [exec, execLwc1]
  rw [withCp1_of_usable _ hcp1, withAccess_of_ok _ (checkAccess_eq_ok_iff_granted.2 h)]

end Loads

end

/-! ## The statements -/

/-- Settles O56: each kind of effect keeps the invariant; a store does because its checks passed. -/
theorem stepKeepsTheInvariant : Obligations.StepKeepsTheInvariant :=
  fun _ _ hs h => step_inv hs h

/-- Settles O9: the start of a step consumes the level and one draw; what follows keeps the inputs and the count. -/
theorem stepKeepsParametersAndConsumesInputs : Obligations.StepKeepsParametersAndConsumesInputs := by
  intro s t h
  obtain ⟨e, rfl⟩ | ⟨i, -, heffect⟩ := step_trap_or_effect h
  · exact ⟨rfl, rfl, rfl, by simp⟩
  · obtain ⟨hcfg, hirq, hirqIn⟩ := heffect.sameInputs
    exact ⟨hcfg, hirq, hirqIn, heffect.draws_le⟩

/-- Settles O13: the frame of `ExecEffect`, a trap included. -/
theorem generalRegisterFrame : Obligations.GeneralRegisterFrame :=
  fun _ _ _ h _ hr => (exec_effect h).readReg_eq hr

/-- Settles O14: the frame of `ExecEffect`, a trap included. -/
theorem floatAndHiLoFrame : Obligations.FloatAndHiLoFrame :=
  fun _ _ _ h => ⟨fun _ hr => (exec_effect h).readFReg_eq hr, (exec_effect h).hi_eq, (exec_effect h).lo_eq⟩

/-- Settles O16: a trap goes to the handler, and every address of `NextPc` but a register's is aligned. -/
theorem onlyRegisterJumpsMisalignPc : Obligations.OnlyRegisterJumpsMisalignPc := by
  intro i s t h hpc hhandler
  obtain htrap | hnext := (exec_effect h).pc_cases
  · exact .inl (htrap ▸ hhandler)
  · exact hnext.aligned_or_register hpc

/-- Settles O37: each load's next state is known once its checks pass; `loadedWord_written` says what the word holds. -/
theorem loadsCompleteOnAnyMemory : Obligations.LoadsCompleteOnAnyMemory := by
  intro s rt rb ft imm
  refine ⟨fun hword => ⟨?lw, fun hcp1 => ?lwc1⟩, fun hbyte => ⟨?lb, ?lbu⟩⟩
  case lw =>
    exact ⟨_, _, exec_lw_of_granted rt rb imm hword, wroteGpr_advance s 1 rt _,
      fun k hk b hb => loadedWord_written s _ hk hb⟩
  case lwc1 =>
    exact ⟨_, _, exec_lwc1_of_granted rb ft imm hcp1 hword, wroteFpr_advance s 1 ft _,
      fun k hk b hb => loadedWord_written s _ hk hb⟩
  case lb =>
    refine ⟨_, _, exec_lb_of_granted rt rb imm hbyte, wroteGpr_advance s 1 rt _, ?_⟩
    rw [BitVec.toInt_signExtend_of_le (by omega)]
    exact ⟨BitVec.le_toInt _, BitVec.toInt_lt⟩
  case lbu =>
    refine ⟨_, _, exec_lbu_of_granted rt rb imm hbyte, wroteGpr_advance s 1 rt _, ?_⟩
    rw [BitVec.toNat_setWidth_of_le (by omega)]
    exact BitVec.isLt _

/-- Under R0_ZERO register 0 reads zero (R21). -/
theorem readReg_zero {s : State} (h : s.cfg.r0Zero = true) : s.readReg 0 = 0 := by
  simp [State.readReg, State.hardwired, h]

/-- Settles O53: an instruction with destination 0 keeps the other registers by the frame, and register 0 reads zero
before and after. -/
theorem registerZeroIsHardwired : Obligations.RegisterZeroIsHardwired := by
  refine ⟨fun s hzero => readReg_zero hzero, fun i s t hzero hdest h q => ?_, fun s imm hfree hone => ?_⟩
  · by_cases hq : q = 0
    · have hcfg : t.cfg = s.cfg := (exec_effect h).sameInputs.1
      rw [hq, readReg_zero hzero, readReg_zero (hcfg ▸ hzero)]
    · exact (exec_effect h).readReg_eq (by simpa [hdest] using Ne.symm hq)
  · have hvalue : s.readReg 1 ||| zeroExtImm imm = zeroExtImm imm := hone ▸ BitVec.zero_or
    have hexec : exec (.ori 0 1 imm) s = .next (s.writeReg 0 (zeroExtImm imm)).advance := by
      simp only [exec, execOri, finishReg, hvalue]
    have hread : (s.writeReg 0 (zeroExtImm imm)).advance.readReg 0 = zeroExtImm imm := by
      simp [State.hardwired, hfree]
    exact ⟨_, hexec, by rw [hread, zeroExtImm, BitVec.toNat_setWidth_of_le (by omega)]⟩

/-- Settles O54: `State.reset` is `State.resetWith` of the default parameters, which ban no access. -/
theorem resetStateHasTheSpecifiedValues : Obligations.ResetStateHasTheSpecifiedValues :=
  ⟨rfl, resetWith_mode _, resetWith_interruptEnable _, readReg_zero rfl, rfl, rfl, rfl, rfl, rfl, rfl, rfl,
    fun _ _ _ => rfl, fun c => ⟨rfl, resetWith_mode c, resetWith_interruptEnable c, rfl⟩⟩

/-- Settles O55, `State.reset` being `State.resetWith` of the default parameters. -/
theorem resetSatisfiesTheInvariant : Obligations.ResetSatisfiesTheInvariant :=
  ⟨resetWith_inv _, resetWith_inv⟩

end Sys2Proof.Machine

/-! # Proofs for spec/20_memory.md

The instructions that access data are named once, with the kind, the width and the address of the access (`DataAccess`);
what the checks of R45 decide is then said for all of them at a time. -/

namespace Sys2Proof.Machine

section
variable {i : Instr} {s t : State} {kind : AccessKind} {width : Width} {a : Word} {f : Fault}

/-! ## The checks of an access, in the words of the statements (R43, R45, R47) -/

theorem checkAccess_eq_raises_of_denied (h : Denied s width kind a) :
    checkAccess s width kind a = .raises (addressError kind a) := by
  refine checkAccess_eq_raises.2 ⟨fun ⟨haligned, hallowed⟩ => ?_, rfl⟩
  obtain ⟨hword, hmisaligned⟩ | hforbidden := h
  · exact hmisaligned ((alignedFor_iff _ _).1 haligned hword)
  · exact Bool.eq_false_iff.1 hforbidden hallowed

theorem checkAccess_eq_stuck_iff_missing :
    checkAccess s width kind a = .stuck (.outsideMemValid kind a) ↔ Missing s width kind a := by
  rw [checkAccess_eq_stuck, alignedFor_iff, and_assoc, and_iff_left rfl]

/-! ## Trap entry (R210) -/

/-- The push of the stack, bit by bit (R31, R210). -/
theorem pushStatus_getLsbD (st : Word) (k : Nat) :
    (pushStatus st).getLsbD k = if k < 2 then false else if k < 6 then st.getLsbD (k - 2) else st.getLsbD k := by
  simp only [pushStatus, BitVec.getLsbD_append, BitVec.getLsbD_extractLsb']
  obtain hlow | hstack | hrest : k < 2 ∨ (2 ≤ k ∧ k < 6) ∨ 6 ≤ k := by omega
  · simp [hlow]
  · have hpushed : k - 2 < 4 := by omega
    simp [hstack, hpushed, not_lt.2 hstack.1]
  · have hplace : 6 + (k - 2 - 4) = k := by omega
    have hnotLow : ¬ k < 2 := by omega
    have hnotStack : ¬ k - 2 < 4 := by omega
    simp only [hnotLow, hnotStack, not_lt.2 hrest, if_false, hplace, Bool.and_eq_right_iff_imp, decide_eq_true_eq]
    exact fun hset => by have := BitVec.lt_of_getLsbD hset; omega

/-- `trapEntry` is the trap entry of the statements, for every exception. -/
theorem trapped_trapEntry (s : State) (e : Exception) : Trapped s (trapEntry e s) e where
  epc := rfl
  excCode := by cases e <;> rfl
  noDelaySlot := rfl
  unit := by rintro n rfl; rfl
  requests := rfl
  badAddress := by cases e <;> rfl
  current := ⟨pushStatus_getLsbD .., pushStatus_getLsbD ..⟩
  pushed := fun k hlo hhi => by simp [pushStatus_getLsbD, hhi, not_lt.2 hlo]
  otherStatus := fun k hk => by
    have hpast : ¬ k < 2 := by omega
    simp [pushStatus_getLsbD, hpast, not_lt.2 hk]
  pc := rfl
  general := fun q => by simp
  hiLo := ⟨rfl, rfl⟩
  floats := fun q => by simp
  memory := fun b => rfl
  inputs := ⟨rfl, rfl, rfl⟩

/-! ## The instructions that access data -/

/-- The instruction makes an access of the kind and width at the address; `lwc1` and `swc1` make theirs only with CU1
(R206). -/
inductive DataAccess (s : State) : Instr → AccessKind → Width → Word → Prop
  | lw (rt rb : GReg) (imm : Imm16) : DataAccess s (.lw rt rb imm) .load .word (s.ea rb imm)
  | lb (rt rb : GReg) (imm : Imm16) : DataAccess s (.lb rt rb imm) .load .byte (s.ea rb imm)
  | lbu (rt rb : GReg) (imm : Imm16) : DataAccess s (.lbu rt rb imm) .load .byte (s.ea rb imm)
  | sw (rt rb : GReg) (imm : Imm16) : DataAccess s (.sw rt rb imm) .store .word (s.ea rb imm)
  | sb (rt rb : GReg) (imm : Imm16) : DataAccess s (.sb rt rb imm) .store .byte (s.ea rb imm)
  | lwc1 (ft : FReg) (rb : GReg) (imm : Imm16) (hcp1 : Cp1Usable s) :
    DataAccess s (.lwc1 ft rb imm) .load .word (s.ea rb imm)
  | swc1 (ft : FReg) (rb : GReg) (imm : Imm16) (hcp1 : Cp1Usable s) :
    DataAccess s (.swc1 ft rb imm) .store .word (s.ea rb imm)

/-- Such an instruction is its access, and has a next state when the checks pass. -/
theorem DataAccess.exec_eq (h : DataAccess s i kind width a) :
    ∃ t, exec i s = withAccess s width kind a (.next t) := by
  cases h with
  | lw | lb | lbu | sw | sb => exact ⟨_, rfl⟩
  | lwc1 _ _ _ hcp1 | swc1 _ _ _ hcp1 =>
    simp only [exec, execLwc1, execSwc1]
    exact ⟨_, withCp1_of_usable _ hcp1⟩

theorem DataAccess.exec_of_denied (h : DataAccess s i kind width a) (hdenied : Denied s width kind a) :
    ∃ t, exec i s = .next t ∧ Trapped s t (addressError kind a) := by
  obtain ⟨t, hexec⟩ := h.exec_eq
  have htrap := withAccess_eq_next (r := .next t).2 (.inr ⟨checkAccess_eq_raises_of_denied hdenied, rfl⟩)
  exact ⟨_, hexec.trans htrap, trapped_trapEntry s _⟩

theorem DataAccess.exec_of_missing (h : DataAccess s i kind width a) (hmissing : Missing s width kind a) :
    exec i s = .fault (.outsideMemValid kind a) := by
  obtain ⟨t, hexec⟩ := h.exec_eq
  exact hexec.trans (withAccess_eq_fault.2 (.inr ⟨checkAccess_eq_stuck_iff_missing.2 hmissing, rfl⟩))

/-! ## What can be stuck -/

theorem next_ne_fault : (Host.Outcome.next t : Result) ≠ .fault f := nofun

theorem refused_ne_fault {r : Refusal} : (Host.Outcome.refused r : Result) ≠ .fault f := nofun

/-- Covers `add`, `sub`, `addi` and the divisions, whose two endings both have a next state. -/
theorem ite_next_ne_fault {p : Prop} [Decidable p] {u : State} :
    (if p then .next t else .next u : Result) ≠ .fault f := by
  split <;> exact next_ne_fault

theorem withCp0_eq_fault {k : State → Result} : withCp0 s k = .fault f ↔ s.cp0Usable = true ∧ k s = .fault f := by
  unfold withCp0
  cases s.cp0Usable <;> simp [raise]

theorem withCp1_eq_fault {k : State → Result} : withCp1 s k = .fault f ↔ s.cu1 = true ∧ k s = .fault f := by
  unfold withCp1
  cases s.cu1 <;> simp [raise]

theorem exec_mfc0_ne_fault {rt : GReg} {cd : CReg} : exec (.mfc0 rt cd) s ≠ .fault f := by
  simp only [exec, execMfc0]
  intro h
  obtain ⟨-, h⟩ := withCp0_eq_fault.1 h
  split at h
  · exact next_ne_fault h
  · exact refused_ne_fault h

theorem exec_mtc0_ne_fault {rt : GReg} {cd : CReg} : exec (.mtc0 rt cd) s ≠ .fault f := by
  simp only [exec, execMtc0]
  intro h
  obtain ⟨-, h⟩ := withCp0_eq_fault.1 h
  split at h
  · exact next_ne_fault h
  · split at h
    · exact next_ne_fault h
    · split at h <;> exact refused_ne_fault h

theorem exec_jalr_ne_fault {rd rs : GReg} : exec (.jalr rd rs) s ≠ .fault f := by
  simp only [exec, execJalr]
  split
  · exact refused_ne_fault
  · exact next_ne_fault

/-- Only the instructions that access data can be stuck (R43). -/
theorem dataAccess_of_exec_eq_fault (h : exec i s = .fault f) : ∃ kind width a, DataAccess s i kind width a := by
  cases i with
  | lw => exact ⟨_, _, _, .lw ..⟩
  | lb => exact ⟨_, _, _, .lb ..⟩
  | lbu => exact ⟨_, _, _, .lbu ..⟩
  | sw => exact ⟨_, _, _, .sw ..⟩
  | sb => exact ⟨_, _, _, .sb ..⟩
  | lwc1 =>
    simp only [exec, execLwc1] at h
    exact ⟨_, _, _, .lwc1 _ _ _ (withCp1_eq_fault.1 h).1⟩
  | swc1 =>
    simp only [exec, execSwc1] at h
    exact ⟨_, _, _, .swc1 _ _ _ (withCp1_eq_fault.1 h).1⟩
  | add | sub | addi | div | divu => exact absurd h ite_next_ne_fault
  | addu | subu | and | nor | or | xor | addiu | andi | lui | ori | xori | mfhi | mthi | mflo | mtlo | sll | srl | sra
  | sllv | srlv | srav | slt | slti | mult | multu | bltz | bgez | blez | bgtz | beq | bne | j | jr | jal | syscall
  | brk => exact absurd h next_ne_fault
  | addS | subS | mulS | divS | cvtSW | cvtWS | mfc1 | mtc1 =>
    simp only [exec, execAddS, execSubS, execMulS, execDivS, execCvtSW, execCvtWS, execMfc1, execMtc1] at h
    exact absurd (withCp1_eq_fault.1 h).2 next_ne_fault
  | rfe =>
    simp only [exec, execRfe] at h
    exact absurd (withCp0_eq_fault.1 h).2 next_ne_fault
  | jalr => exact absurd h exec_jalr_ne_fault
  | mfc0 => exact absurd h exec_mfc0_ne_fault
  | mtc0 => exact absurd h exec_mtc0_ne_fault

/-- A stuck instruction is stuck by its access, at an address that holds no memory (R43). -/
theorem exec_eq_fault (h : exec i s = .fault f) : ∃ kind width a,
    DataAccess s i kind width a ∧ Missing s width kind a ∧ f = .outsideMemValid kind a := by
  obtain ⟨kind, width, a, haccess⟩ := dataAccess_of_exec_eq_fault h
  obtain ⟨t, hexec⟩ := haccess.exec_eq
  obtain ⟨-, hnext⟩ | ⟨hstuck, hf⟩ := withAccess_eq_fault.1 (hexec.symm.trans h)
  · exact absurd hnext next_ne_fault
  · exact ⟨kind, width, a, haccess, checkAccess_eq_stuck_iff_missing.1 hstuck, hf⟩

/-- The interrupt condition on the sampled state, in the words of the statements (R203, R220). -/
theorem beginStep_interruptDue_iff : s.beginStep.interruptDue = true ↔ InterruptDue s := by
  simp [InterruptDue, State.interruptDue, State.interruptEnable, State.interruptPending, State.interruptMask]

/-- A stuck step takes no interrupt; its fetch is stuck, or the instruction it decoded is (R203). -/
theorem step_eq_fault (h : step s = .fault f) : s.beginStep.interruptDue = false ∧
    ((checkAccess s.beginStep .word .fetch s.pc = .stuck (.outsideMemValid .fetch s.pc) ∧
        f = .outsideMemValid .fetch s.pc) ∨
      (checkAccess s.beginStep .word .fetch s.pc = .ok ∧
        ∃ i, decodeWord s.beginStep.fetchedWord = some i ∧ exec i s.beginStep = .fault f)) := by
  unfold step fetchThen at h
  split at h
  · exact absurd h next_ne_fault
  · next hdue =>
    refine ⟨Bool.eq_false_iff.2 hdue, ?_⟩
    obtain ⟨hok, h⟩ | hstuck := withAccess_eq_fault.1 h
    · split at h
      · next i hdec => exact .inr ⟨hok, i, hdec, h⟩
      · exact absurd h next_ne_fault
    · exact .inl hstuck

/-! ## What an instruction leaves unchanged in memory -/

/-- Memory is written by the two store effects alone, and then only in the stored bytes (R40, R46). -/
theorem ExecEffect.readByte_eq (h : ExecEffect i s t) {b : Nat}
    (hb : ∀ a n, storedRange i s = some (a, n) → ∀ k < n, b ≠ byteAddress a k) :
    t.mem.readByte b = s.mem.readByte b := by
  cases h with
  | storeWord hrange hok v => exact readByte_writeWord_of_ne _ _ _ v b (hb _ _ hrange)
  | storeByte hrange hok v => exact readByte_writeByte_of_ne _ v (hb _ _ hrange 0 (by omega))
  | _ => simp

/-! ## A stored word -/

theorem exec_sw_of_granted {rt rb : GReg} {imm : Imm16} (h : Granted s .word .store (s.ea rb imm)) :
    exec (.sw rt rb imm) s = .next (s.storeWord (s.ea rb imm) (s.readReg rt)).advance :=
  withAccess_of_ok _ (checkAccess_eq_ok_iff_granted.2 h)

/-- The byte at a place of a word, as a number (R44). -/
theorem byteOfWord_toNat (o : ByteOrder) (w : Word) {k : Nat} (hk : k < 4) :
    (byteOfWord o w k).toNat = w.toNat / 2 ^ (8 * lane o k) % 256 := by
  rw [byteOfWord_eq_lane o w hk, BitVec.extractLsb'_toNat, Nat.shiftRight_eq_div_pow]

theorem loadedWord_storeWord (s : State) (a v : Word) : (s.storeWord a v).advance.loadedWord a = v :=
  readWord_writeWord ..

/-- A byte loaded from a stored word, by whatever address it is reached, is that word's byte (R44, R50). -/
theorem loadedByte_storeWord (s : State) (a v : Word) {b : Word} {k : Nat} (hk : k < 4)
    (hb : b.toNat = byteAddress a k) : (s.storeWord a v).advance.loadedByte b = byteOfWord s.cfg.byteOrder v k := by
  have hread : (s.mem.writeWord s.cfg.byteOrder a v).readByte (byteAddress b 0) =
      some (byteOfWord s.cfg.byteOrder v k) := by
    rw [byteAddress_zero, hb]
    exact readByte_writeWord_at _ _ _ _ hk
  simp [State.loadedByte, State.advance, Memory.byteOr, hread, -byteAddress_zero]

end

/-! ## The statements -/

/-- Settles O35: sign extension keeps the displacement's value, and word addition is addition modulo `2^32`. -/
theorem effectiveAddressIsTheWrappedSum : Obligations.EffectiveAddressIsTheWrappedSum := by
  intro s rb imm
  have hsum : s.ea rb imm = BitVec.ofInt 32 ((s.readReg rb).toNat + imm.toInt) := by
    rw [State.ea, effectiveAddress, signExtImm, BitVec.signExtend, BitVec.ofInt_add]
    simp
  rw [hsum, BitVec.toNat_ofInt]
  omega

/-- Settles O15: both parts are the memory frame of `ExecEffect`. -/
theorem memoryFrame : Obligations.MemoryFrame := by
  intro i s t h
  refine ⟨fun hnone b => ?_, fun a n hsome b hb => ?_⟩
  · exact (exec_effect h).readByte_eq (by simp [hnone])
  · refine (exec_effect h).readByte_eq fun a' n' hrange => ?_
    obtain ⟨rfl, rfl⟩ : a = a' ∧ n = n' := by simpa [hsome] using hrange
    exact hb

/-- Settles O34: an instruction is stuck by its `DataAccess` alone, and a step by its fetch or its instruction. -/
theorem faultsOnlyOutsideMemValid : Obligations.FaultsOnlyOutsideMemValid := by
  refine ⟨fun i s f h => ?_, fun s f h => ?_⟩
  · obtain ⟨kind, width, a, haccess, hmissing, hf⟩ := exec_eq_fault h
    refine ⟨kind, width, a, hf, hmissing, ?_⟩
    cases haccess with
    | lw rt rb imm => exact ⟨rb, imm, rfl, .inl ⟨rfl, rfl, .inl ⟨rt, rfl⟩⟩⟩
    | lwc1 ft rb imm => exact ⟨rb, imm, rfl, .inl ⟨rfl, rfl, .inr ⟨ft, rfl⟩⟩⟩
    | lb rt rb imm => exact ⟨rb, imm, rfl, .inr (.inl ⟨rfl, rfl, rt, .inl rfl⟩)⟩
    | lbu rt rb imm => exact ⟨rb, imm, rfl, .inr (.inl ⟨rfl, rfl, rt, .inr rfl⟩)⟩
    | sw rt rb imm => exact ⟨rb, imm, rfl, .inr (.inr (.inl ⟨rfl, rfl, .inl ⟨rt, rfl⟩⟩))⟩
    | swc1 ft rb imm => exact ⟨rb, imm, rfl, .inr (.inr (.inl ⟨rfl, rfl, .inr ⟨ft, rfl⟩⟩))⟩
    | sb rt rb imm => exact ⟨rb, imm, rfl, .inr (.inr (.inr ⟨rfl, rfl, rt, rfl⟩))⟩
  · obtain ⟨hdue, hcases⟩ := step_eq_fault h
    refine ⟨fun hint => Bool.eq_false_iff.1 hdue (beginStep_interruptDue_iff.2 hint), ?_⟩
    obtain ⟨hstuck, hf⟩ | ⟨hok, hexec⟩ := hcases
    · exact .inl ⟨hf, checkAccess_eq_stuck_iff_missing.1 hstuck⟩
    · exact .inr ⟨checkAccess_eq_ok_iff_granted.1 hok, hexec⟩

/-- Settles O39: the stored word reads back whole (`loadedWord_storeWord`) and byte by byte (`loadedByte_storeWord`). -/
theorem storeThenLoad : Obligations.StoreThenLoad := by
  intro s t rt rb rd rc imm disp k hstore hsw hk haddr
  obtain rfl : (s.storeWord (s.ea rb imm) (s.readReg rt)).advance = t :=
    next_inj.1 ((exec_sw_of_granted hstore).symm.trans hsw)
  refine ⟨fun hzero hload => ⟨_, exec_lw_of_granted rd rc disp hload, ?_⟩,
    fun hload => ⟨_, _, exec_lbu_of_granted rd rc disp hload, wroteGpr_advance _ 1 rd _, ?_⟩⟩
  · subst hzero
    have hsame := BitVec.eq_of_toNat_eq (haddr.trans (byteAddress_zero _))
    rw [hsame, loadedWord_storeWord]
    exact wroteGpr_advance _ 1 rd _
  · rw [BitVec.toNat_setWidth_of_le (by omega), loadedByte_storeWord _ _ _ hk haddr, byteOfWord_toNat _ _ hk]

/-- Settles O40: an access whose checks of alignment or ADDR_OK fail is the trap entry of its kind's address error. -/
theorem dataAddressErrors : Obligations.DataAddressErrors :=
  fun _ rt rb ft imm =>
    ⟨fun h => ⟨(DataAccess.lw rt rb imm).exec_of_denied h,
        fun hcp1 => (DataAccess.lwc1 ft rb imm hcp1).exec_of_denied h⟩,
      fun h => ⟨(DataAccess.lb rt rb imm).exec_of_denied h, (DataAccess.lbu rt rb imm).exec_of_denied h⟩,
      fun h => ⟨(DataAccess.sw rt rb imm).exec_of_denied h,
        fun hcp1 => (DataAccess.swc1 ft rb imm hcp1).exec_of_denied h⟩,
      fun h => (DataAccess.sb rt rb imm).exec_of_denied h⟩

/-- Settles O41: an access whose address is aligned and allowed but outside MEM_VALID faults. -/
theorem outsideMemValidIsStuck : Obligations.OutsideMemValidIsStuck :=
  fun _ rt rb ft imm =>
    ⟨fun h => ⟨(DataAccess.lw rt rb imm).exec_of_missing h,
        fun hcp1 => (DataAccess.lwc1 ft rb imm hcp1).exec_of_missing h⟩,
      fun h => ⟨(DataAccess.lb rt rb imm).exec_of_missing h, (DataAccess.lbu rt rb imm).exec_of_missing h⟩,
      fun h => ⟨(DataAccess.sw rt rb imm).exec_of_missing h,
        fun hcp1 => (DataAccess.swc1 ft rb imm hcp1).exec_of_missing h⟩,
      fun h => (DataAccess.sb rt rb imm).exec_of_missing h⟩

end Sys2Proof.Machine

/-! # Proofs for spec/30_encoding.md

Each instruction belongs to one row of the opcode table (`Instr.row`). Three facts about that row carry this part: the
row's mask keeps its `match` of the instruction's word (`encode_and_row_mask`), the row reads the operands back from that
word (`row_build_encode`), and a word of the row is the word of what the row reads from it (`encode_row_build`). Together
they say that a word decodes to an instruction exactly when it is that instruction's word (`decodeWord_eq_some_iff`). -/

namespace Sys2Proof

/-! ## The row of an instruction (R70) -/

/-- The row an instruction belongs to: the constructors of `Instr` stand in the order of the table. `row_build_of_mem`
ties it to the decoder. -/
def Instr.row (i : Instr) : Row := opcodeTable.get (Fin.ofNat 60 i.ctorIdx : Fin 60)

theorem row_mem (i : Instr) : i.row ∈ opcodeTable := List.get_mem ..

theorem row_build_of_mem {r : Row} (hr : r ∈ opcodeTable) (w : Word) : (r.build w).row = r := by
  have hmap : opcodeTable.map (fun q => (q.build w).row) = opcodeTable.map id := rfl
  exact List.map_inj_left.1 hmap r hr

theorem row_admits_iff (r : Row) (w : Word) : r.admits w = true ↔ w &&& r.mask = r.pat := by
  rw [Row.admits, beq_iff_eq]

/-- A word that matches the row of `i` decodes to the instruction which that row reads from it, whatever the operands
of `i`. -/
theorem decodeWord_of_row (i : Instr) {w : Word} (h : w &&& i.row.mask = i.row.pat) :
    decodeWord w = some (i.row.build w) :=
  decodeWord_of_admits i.row (row_mem i) w ((row_admits_iff i.row w).2 h)

/-- A decoded word matches the row of its instruction, which reads that instruction from it. -/
theorem row_of_decodeWord {w : Word} {i : Instr} (h : decodeWord w = some i) :
    w &&& i.row.mask = i.row.pat ∧ i.row.build w = i := by
  obtain ⟨r, hr, hadmits, rfl⟩ := admits_of_decodeWord h
  rw [row_build_of_mem hr w]
  exact ⟨(row_admits_iff r w).1 hadmits, rfl⟩

/-! ## From an instruction to its word and back -/

/-- The mask of its row keeps exactly the fixed bits of an instruction's word (R70). -/
theorem encode_and_row_mask (i : Instr) : encode i &&& i.row.mask = i.row.pat := by
  cases i with
  | lw | lb | lbu | sw | sb | lwc1 | swc1 | addi | addiu | andi | ori | xori | slti | beq | bne =>
    exact (mask_encodeI_op ..).trans rfl
  | lui => exact (mask_encodeI_op_s ..).trans rfl
  | bltz | bgez | blez | bgtz => exact (mask_encodeI_op_t ..).trans rfl
  | add | sub | addu | subu | and | nor | or | xor | slt | sllv | srlv | srav =>
    exact (mask_encodeR_sh ..).trans rfl
  | mult | div | multu | divu => exact (mask_encodeR_d_sh ..).trans rfl
  | mfhi | mflo => exact (mask_encodeR_s_t_sh ..).trans rfl
  | mthi | mtlo | jr => exact (mask_encodeR_t_d_sh ..).trans rfl
  | jalr => exact (mask_encodeR_t_sh ..).trans rfl
  | sll | srl | sra => exact (mask_encodeR_s ..).trans rfl
  | addS | subS | mulS | divS => exact (mask_encodeFR ..).trans rfl
  | cvtSW | cvtWS => exact (mask_encodeFR_ft ..).trans rfl
  | j | jal => exact (mask_encodeJ ..).trans rfl
  | mfc0 | mtc0 | mfc1 | mtc1 => exact (mask_encodeCM ..).trans rfl
  | brk => exact (mask_encode_brk ..).trans rfl
  | syscall | rfe => rfl

/-- The free bits of a `break` (R82). -/
theorem fields_encode_brk (upper : BitVec 14) (lower : BitVec 5) :
    fieldBreakUpper (encode (.brk upper lower)) = upper ∧ fieldSh (encode (.brk upper lower)) = lower := by
  refine ⟨?_, ?_⟩ <;>
  · apply BitVec.eq_of_getLsbD_eq
    intro k hk
    simp only [fieldBreakUpper, fieldSh, encode, BitVec.getLsbD_extractLsb', BitVec.getLsbD_append]
    interval_cases k <;> simp

/-- Its row reads an instruction's operands back from its word, format by format (R61, R62). -/
theorem row_build_encode (i : Instr) : i.row.build (encode i) = i := by
  cases i <;> conv_lhs => whnf
  case lw | lb | lbu | sw | sb | lwc1 | swc1 | addi | addiu | andi | ori | xori | slti | lui | beq | bne | bltz | bgez |
      blez | bgtz =>
    simp only [encode, fields_encodeI]
  case add | sub | addu | subu | and | nor | or | xor | slt | mult | div | multu | divu | mfhi | mflo | mthi | mtlo |
      sll | srl | sra | sllv | srlv | srav | jr | jalr =>
    simp only [encode, fields_encodeR]
  case addS | subS | mulS | divS | cvtSW | cvtWS => simp only [encode, fields_encodeFR]
  case mfc0 | mtc0 | mfc1 | mtc1 => simp only [encode, fields_encodeCM]
  case j | jal => simp only [encode, field_encodeJ]
  case brk => simp only [fields_encode_brk]

/-! ## From a word to its instruction and back

A word is put together again from its fields, in each format; the fields that a format has and a row fixes are known
from the row's mask. -/

theorem encodeI_eq {w : Word} {op : BitVec 6} {s t : BitVec 5} {imm : Imm16} (hop : w.extractLsb' 26 6 = op)
    (hs : fieldS w = s) (ht : fieldT w = t) (himm : fieldImm w = imm) : encodeI op s t imm = w := by
  subst hop hs ht himm
  simp (disch := simp) only [encodeI, fieldS, fieldT, fieldImm, BitVec.extractLsb'_append_extractLsb'_eq_extractLsb']
  exact BitVec.extractLsb'_eq_self

theorem encodeR_eq {w : Word} {s t d sh : BitVec 5} {fn : BitVec 6} (hop : w.extractLsb' 26 6 = 0#6)
    (hs : fieldS w = s) (ht : fieldT w = t) (hd : fieldD w = d) (hsh : fieldSh w = sh)
    (hfn : w.extractLsb' 0 6 = fn) : encodeR s t d sh fn = w := by
  subst hs ht hd hsh hfn
  simp (disch := simp) only [encodeR, ← hop, fieldS, fieldT, fieldD, fieldSh,
    BitVec.extractLsb'_append_extractLsb'_eq_extractLsb']
  exact BitVec.extractLsb'_eq_self

theorem encodeJ_eq {w : Word} {op : BitVec 6} {tgt : Target} (hop : w.extractLsb' 26 6 = op)
    (htgt : fieldTarget w = tgt) : encodeJ op tgt = w := by
  subst hop htgt
  simp (disch := simp) only [encodeJ, fieldTarget, BitVec.extractLsb'_append_extractLsb'_eq_extractLsb']
  exact BitVec.extractLsb'_eq_self

theorem encodeFR_eq {w : Word} {fmt ft fs fd : BitVec 5} {fn : BitVec 6} (hop : w.extractLsb' 26 6 = 17#6)
    (hfmt : w.extractLsb' 21 5 = fmt) (hft : fieldFt w = ft) (hfs : fieldFs w = fs) (hfd : fieldFd w = fd)
    (hfn : w.extractLsb' 0 6 = fn) : encodeFR fmt ft fs fd fn = w := by
  subst hfmt hft hfs hfd hfn
  simp (disch := simp) only [encodeFR, ← hop, fieldFt, fieldFs, fieldFd,
    BitVec.extractLsb'_append_extractLsb'_eq_extractLsb']
  exact BitVec.extractLsb'_eq_self

theorem encodeCM_eq {w : Word} {z : BitVec 2} {sub t d : BitVec 5} (hop : w.extractLsb' 28 4 = 4#4)
    (hz : w.extractLsb' 26 2 = z) (hsub : w.extractLsb' 21 5 = sub) (ht : fieldT w = t) (hd : fieldD w = d)
    (hlow : w.extractLsb' 0 11 = 0#11) : encodeCM z sub t d = w := by
  subst hz hsub ht hd
  simp (disch := simp) only [encodeCM, ← hop, ← hlow, fieldT, fieldD,
    BitVec.extractLsb'_append_extractLsb'_eq_extractLsb']
  exact BitVec.extractLsb'_eq_self

theorem encode_brk_eq {w : Word} (hop : w.extractLsb' 26 6 = 0#6) (hgap : w.extractLsb' 11 1 = 0#1)
    (hfn : w.extractLsb' 0 6 = 13#6) : encode (.brk (fieldBreakUpper w) (fieldSh w)) = w := by
  simp (disch := simp) only [encode, ← hop, ← hgap, ← hfn, fieldBreakUpper, fieldSh,
    BitVec.extractLsb'_append_extractLsb'_eq_extractLsb']
  exact BitVec.extractLsb'_eq_self

/-- A field that the mask covers is that field of the `match`. -/
theorem extractLsb'_of_and_eq {w mask pat : Word} (h : w &&& mask = pat) {start len : Nat}
    (hmask : mask.extractLsb' start len = BitVec.allOnes len) :
    w.extractLsb' start len = pat.extractLsb' start len := by
  rw [← h, BitVec.extractLsb'_and, hmask, BitVec.and_allOnes]

/-- A word of a row is the word of the instruction which the row reads from it: each bit is fixed by the row or belongs
to an operand (R70, R76). -/
theorem encode_row_build (i : Instr) {w : Word} (h : w &&& i.row.mask = i.row.pat) : encode (i.row.build w) = w := by
  have fixed {start len : Nat} {v : BitVec len} (hv : i.row.mask.extractLsb' start len = BitVec.allOnes len ∧
      i.row.pat.extractLsb' start len = v) : w.extractLsb' start len = v :=
    (extractLsb'_of_and_eq h hv.1).trans hv.2
  cases i <;> dsimp only [Instr.row, Instr.ctorIdx] at fixed
  case lw | lb | lbu | sw | sb | lwc1 | swc1 | addi | addiu | andi | ori | xori | slti | beq | bne =>
    exact encodeI_eq (fixed (by decide)) rfl rfl rfl
  case lui => exact encodeI_eq (fixed (by decide)) (fixed (by decide)) rfl rfl
  case bltz | bgez | blez | bgtz => exact encodeI_eq (fixed (by decide)) rfl (fixed (by decide)) rfl
  case add | sub | addu | subu | and | nor | or | xor | slt | sllv | srlv | srav =>
    exact encodeR_eq (fixed (by decide)) rfl rfl rfl (fixed (by decide)) (fixed (by decide))
  case mult | div | multu | divu =>
    exact encodeR_eq (fixed (by decide)) rfl rfl (fixed (by decide)) (fixed (by decide)) (fixed (by decide))
  case mfhi | mflo =>
    exact encodeR_eq (fixed (by decide)) (fixed (by decide)) (fixed (by decide)) rfl (fixed (by decide))
      (fixed (by decide))
  case mthi | mtlo | jr =>
    exact encodeR_eq (fixed (by decide)) rfl (fixed (by decide)) (fixed (by decide)) (fixed (by decide))
      (fixed (by decide))
  case jalr =>
    exact encodeR_eq (fixed (by decide)) rfl (fixed (by decide)) rfl (fixed (by decide)) (fixed (by decide))
  case sll | srl | sra =>
    exact encodeR_eq (fixed (by decide)) (fixed (by decide)) rfl rfl rfl (fixed (by decide))
  case addS | subS | mulS | divS =>
    exact encodeFR_eq (fixed (by decide)) (fixed (by decide)) rfl rfl rfl (fixed (by decide))
  case cvtSW | cvtWS =>
    exact encodeFR_eq (fixed (by decide)) (fixed (by decide)) (fixed (by decide)) rfl rfl (fixed (by decide))
  case j | jal => exact encodeJ_eq (fixed (by decide)) rfl
  case mfc0 | mtc0 | mfc1 | mtc1 =>
    exact encodeCM_eq (fixed (by decide)) (fixed (by decide)) (fixed (by decide)) rfl rfl (fixed (by decide))
  case brk => exact encode_brk_eq (fixed (by decide)) (fixed (by decide)) (fixed (by decide))
  case syscall | rfe => exact h.symm.trans BitVec.and_allOnes

/-- The decoder is the inverse of the encoder (R70, R76). -/
theorem decodeWord_eq_some_iff {w : Word} {i : Instr} : decodeWord w = some i ↔ encode i = w := by
  refine ⟨fun h => ?_, ?_⟩
  · obtain ⟨hrow, hbuild⟩ := row_of_decodeWord h
    rw [← hbuild, encode_row_build i hrow]
  · rintro rfl
    rw [decodeWord_of_row i (encode_and_row_mask i), row_build_encode]

theorem decodeWord_encode (i : Instr) : decodeWord (encode i) = some i := decodeWord_eq_some_iff.2 rfl

/-- Decoding the four bytes of a word is decoding the word; the bytes after it are left alone (R44, R60). -/
theorem decodeBytes_of_decodeWord {w : Word} {i : Instr} (h : decodeWord w = some i) (o : ByteOrder)
    (rest : List Byte) : decodeBytes o ((List.range 4).map (byteOfWord o w) ++ rest) = .instr i rest := by
  have hbytes : (List.range 4).map (byteOfWord o w) ++ rest =
      byteOfWord o w 0 :: byteOfWord o w 1 :: byteOfWord o w 2 :: byteOfWord o w 3 :: rest := rfl
  simp only [hbytes, decodeBytes, Machine.wordOfBytes_byteOfWord, h]

/-! ## The printed table (R70) -/

/-- `match` and `mask` of a printed row are what its pattern says. -/
def PrintedRow.ReadOffPattern (r : PrintedRow) : Prop :=
  r.pat = wordOfPattern (fun c => c = '1') r.pattern ∧
    r.mask = wordOfPattern (fun c => c = '0' || c = '1') r.pattern

/-- `wordOfPattern` of the pattern's characters. -/
def wordOfChars (one : Char → Bool) (cs : List Char) : Word :=
  cs.foldl (fun w c => if c = ' ' then w else w <<< 1 ||| (if one c then 1 else 0)) 0

theorem wordOfPattern_ofList (one : Char → Bool) (cs : List Char) :
    wordOfPattern one (String.ofList cs) = wordOfChars one cs := by
  rw [wordOfPattern, String.toList_ofList, wordOfChars]

theorem readOffPattern_of_chars {r : PrintedRow} {cs : List Char} (hcs : r.pattern = String.ofList cs)
    (hpat : r.pat = wordOfChars (fun c => c = '1') cs)
    (hmask : r.mask = wordOfChars (fun c => c = '0' || c = '1') cs) : r.ReadOffPattern :=
  ⟨by rw [hcs, hpat, wordOfPattern_ofList], by rw [hcs, hmask, wordOfPattern_ofList]⟩

/-- Row by row, on the characters of the patterns: to evaluate `String.toList` on the literals is slow. -/
theorem printedRows_readOffPattern : ∀ r ∈ printedRows, r.ReadOffPattern := by
  repeat' refine List.forall_mem_cons.2 ⟨readOffPattern_of_chars rfl (by decide +kernel) (by decide +kernel), ?_⟩
  exact List.forall_mem_nil _

theorem printedRows_mnemonic_nodup : (printedRows.map (fun r => r.mnemonic)).Nodup := by decide +kernel

theorem printedRow_eq_of_mnemonic {r q : PrintedRow} (hr : r ∈ printedRows) (hq : q ∈ printedRows)
    (h : r.mnemonic = q.mnemonic) : r = q :=
  List.inj_on_of_nodup_map printedRows_mnemonic_nodup hr hq h

/-- What the printed table says of a row besides its pattern: `match`, mask and the mnemonic of its words. -/
def PrintedRow.columns (q : PrintedRow) : Word × Word × (Word → String) := (q.pat, q.mask, fun _ => q.mnemonic)

/-- The same of a row of the decoder's table. -/
def Row.columns (r : Row) : Word × Word × (Word → String) := (r.pat, r.mask, fun w => (r.build w).mnemonic)

theorem columns_eq_iff {q : PrintedRow} {r : Row} :
    q.columns = r.columns ↔ q.pat = r.pat ∧ q.mask = r.mask ∧ ∀ w, q.mnemonic = (r.build w).mnemonic := by
  simp [PrintedRow.columns, Row.columns, funext_iff]

/-- The printed table and the decoder's table agree row by row. -/
theorem map_columns_printedRows : printedRows.map PrintedRow.columns = opcodeTable.map Row.columns := rfl

theorem exists_row_of_printed {q : PrintedRow} (hq : q ∈ printedRows) : ∃ r ∈ opcodeTable, r.columns = q.columns :=
  List.mem_map.1 (map_columns_printedRows ▸ List.mem_map_of_mem hq)

theorem exists_printed_of_row {r : Row} (hr : r ∈ opcodeTable) : ∃ q ∈ printedRows, q.columns = r.columns :=
  List.mem_map.1 (map_columns_printedRows ▸ List.mem_map_of_mem hr)

/-- Every instruction has a printed row, the one with its mnemonic; it prints the instruction's row. -/
theorem exists_printed_of_instr (i : Instr) :
    ∃ q ∈ printedRows, q.mnemonic = i.mnemonic ∧ q.pat = i.row.pat ∧ q.mask = i.row.mask := by
  obtain ⟨q, hq, hcolumns⟩ := exists_printed_of_row (row_mem i)
  obtain ⟨hpat, hmask, hmnemonic⟩ := columns_eq_iff.1 hcolumns
  exact ⟨q, hq, by rw [hmnemonic (encode i), row_build_encode], hpat, hmask⟩

/-- A word matches a printed row exactly when it decodes to an instruction of that row (R70). -/
theorem and_mask_eq_pat_iff_decodes {q : PrintedRow} (hq : q ∈ printedRows) (w : Word) :
    w &&& q.mask = q.pat ↔ ∃ i, decodeWord w = some i ∧ i.mnemonic = q.mnemonic := by
  refine ⟨fun h => ?_, fun ⟨i, hdecode, hmnemonic⟩ => ?_⟩
  · obtain ⟨r, hr, hcolumns⟩ := exists_row_of_printed hq
    obtain ⟨hpat, hmask, hmnemonic⟩ := columns_eq_iff.1 hcolumns.symm
    rw [hpat, hmask] at h
    exact ⟨r.build w, decodeWord_of_admits r hr w ((row_admits_iff r w).2 h), (hmnemonic w).symm⟩
  · obtain ⟨q', hq', hmnemonic', hpat, hmask⟩ := exists_printed_of_instr i
    obtain rfl := printedRow_eq_of_mnemonic hq hq' (hmnemonic.symm.trans hmnemonic'.symm)
    rw [hpat, hmask]
    exact (row_of_decodeWord hdecode).1

/-! ## The statements -/

/-- Settles O3: `decodeWord_encode`, and the bytes of a word are those of the word. -/
theorem decodeEncodeRoundTrip : Obligations.DecodeEncodeRoundTrip :=
  fun i => ⟨decodeWord_encode i, decodeBytes_of_decodeWord (decodeWord_encode i)⟩

/-- Settles O4: each part is read off `decodeWord_eq_some_iff`. -/
theorem encodeDecodeRoundTrip : Obligations.EncodeDecodeRoundTrip := by
  refine ⟨fun w i => decodeWord_eq_some_iff.1, fun i j h => ?_, fun w => ?_⟩
  · exact Option.some.inj ((decodeWord_encode i).symm.trans (decodeWord_eq_some_iff.2 h.symm))
  · simp only [Option.eq_none_iff_forall_ne_some, ne_eq, decodeWord_eq_some_iff]

/-- Settles O2: the printed table is the decoder's table (`map_columns_printedRows`), and its mnemonics tell
its rows apart. -/
theorem decoderFollowsThePrintedTable : Obligations.DecoderFollowsThePrintedTable := by
  refine ⟨rfl, printedRows_mnemonic_nodup, fun i => ?everyInstr, printedRows_readOffPattern,
    fun w q hq => and_mask_eq_pat_iff_decodes hq w, fun w r hr q hq hwr hwq => ?oneRow, fun w => ⟨?reserved, ?noRow⟩⟩
  case everyInstr =>
    obtain ⟨q, hq, hmnemonic, -⟩ := exists_printed_of_instr i
    exact ⟨q, hq, hmnemonic⟩
  case oneRow =>
    obtain ⟨i, hi, hri⟩ := (and_mask_eq_pat_iff_decodes hr w).1 hwr
    obtain ⟨j, hj, hqj⟩ := (and_mask_eq_pat_iff_decodes hq w).1 hwq
    obtain rfl : i = j := Option.some.inj (hi.symm.trans hj)
    exact printedRow_eq_of_mnemonic hr hq (hri.symm.trans hqj)
  case reserved =>
    intro hnone q hq hw
    obtain ⟨i, hi, -⟩ := (and_mask_eq_pat_iff_decodes hq w).1 hw
    exact Option.some_ne_none i (hi.symm.trans hnone)
  case noRow =>
    refine fun hno => Option.eq_none_iff_forall_ne_some.2 fun i hi => ?_
    obtain ⟨q, hq, hmnemonic, -⟩ := exists_printed_of_instr i
    exact hno q hq ((and_mask_eq_pat_iff_decodes hq w).2 ⟨i, hi, hmnemonic.symm⟩)

/-- Settles O5: a word that matches a row decodes to what the row reads, whose operands are the fields; the operands of
the instruction that names the row do not matter. -/
theorem fieldsReadTheirBits : Obligations.FieldsReadTheirBits :=
  fun _ =>
    ⟨decodeWord_of_row (.lw 0 0 0), decodeWord_of_row (.swc1 0 0 0), decodeWord_of_row (.srav 0 0 0),
      decodeWord_of_row (.divS 0 0 0), decodeWord_of_row (.cvtSW 0 0), decodeWord_of_row (.bgez 0 0),
      decodeWord_of_row (.beq 0 0 0), decodeWord_of_row (.jalr 0 0), decodeWord_of_row (.brk 0 0),
      decodeWord_of_row (.j 0), decodeWord_of_row (.jal 0), decodeWord_of_row (.sll 0 0 0),
      decodeWord_of_row (.srl 0 0 0), decodeWord_of_row (.sra 0 0 0), decodeWord_of_row (.mtc0 0 0),
      decodeWord_of_row (.mfc1 0 0), decodeWord_of_row (.mtc1 0 0)⟩

/-- Settles O1: each word is the word of its instruction, and the bytes are those of the first word. -/
theorem specWordsDecode : Obligations.SpecWordsDecode := by
  have hlw : decodeWord 0x8C850008#32 = some (.lw 5 4 8) := decodeWord_eq_some_iff.2 rfl
  refine ⟨hlw, ?_, ?_, ?_, ?_, ?_, ?_, ?_, ?_, ?_, ?_, decodeBytes_of_decodeWord hlw .big [],
    decodeBytes_of_decodeWord hlw .little []⟩ <;>
  exact decodeWord_eq_some_iff.2 rfl

end Sys2Proof

/-! # Proofs for spec/40_load_store.md

A load hands on what memory holds, so each load is a fact about the number its bytes make up (`wordOfBytes_toNat`); a store
changes memory alone, so each store is a fact about the memory it leaves (`wroteBytes_advance`). -/

namespace Sys2Proof.Machine

section
variable {s : State}

/-! ## Loads of written bytes (R44, R45) -/

/-- A byte appended below is a digit to the base `2 ^ 8`. -/
theorem toNat_append_byte {n : Nat} (x : BitVec n) (b : Byte) : (x ++ b).toNat = x.toNat * 2 ^ 8 + b.toNat := by
  rw [BitVec.toNat_append, ← Nat.shiftLeft_add_eq_or_of_lt b.isLt, Nat.shiftLeft_eq]

/-- The word of four bytes, as a number (R44). -/
theorem wordOfBytes_toNat (o : ByteOrder) (b0 b1 b2 b3 : Byte) :
    (wordOfBytes o b0 b1 b2 b3).toNat = wordValue o b0 b1 b2 b3 := by
  cases o <;>
  · simp only [wordOfBytes, wordValue, toNat_append_byte]
    ring

/-- A load of a word that is written finds the number its bytes make up, whatever the draw. -/
theorem loadedWord_toNat {a : Word} {b0 b1 b2 b3 : Byte} (h : HoldsBytes s a b0 b1 b2 b3) :
    (s.loadedWord a).toNat = wordValue s.cfg.byteOrder b0 b1 b2 b3 := by
  obtain ⟨h0, h1, h2, h3⟩ := h
  rw [State.loadedWord, readWord_of_written _ _ _ _ b0 b1 b2 b3 h0 h1 h2 h3, wordOfBytes_toNat]

/-- A load of a byte that is written finds it, whatever the draw. -/
theorem loadedByte_of_written {a : Word} {b : Byte} (h : s.mem.readByte a.toNat = some b) : s.loadedByte a = b := by
  rw [State.loadedByte, byteAddress_zero, Memory.byteOr, h, Option.getD_some]

/-! ## Stores (R45) -/

section Stores
variable {rt rb : GReg} {ft : FReg} {imm : Imm16}

theorem exec_sb_of_granted (h : Granted s .byte .store (s.ea rb imm)) :
    exec (.sb rt rb imm) s = .next (s.storeByte (s.ea rb imm) ((s.readReg rt).extractLsb' 0 8)).advance :=
  withAccess_of_ok _ (checkAccess_eq_ok_iff_granted.2 h)

theorem exec_swc1_of_granted (hcp1 : Cp1Usable s) (h : Granted s .word .store (s.ea rb imm)) :
    exec (.swc1 ft rb imm) s = .next (s.storeWord (s.ea rb imm) (s.readFReg ft)).advance := by
  simp only [exec, execSwc1]
  rw [withCp1_of_usable _ hcp1, withAccess_of_ok _ (checkAccess_eq_ok_iff_granted.2 h)]

end Stores

/-- An instruction that replaces memory and goes on writes the bytes in which the new memory differs, and nothing else. -/
theorem wroteBytes_advance {m : Memory} {a : Word} {n : Nat} {byte : Nat → Byte}
    (hstored : ∀ k < n, m.readByte (byteAddress a k) = some (byte k))
    (hothers : ∀ b, (∀ k < n, b ≠ byteAddress a k) → m.readByte b = s.mem.readByte b) :
    WroteBytes s { s with mem := m }.advance a n byte where
  stored := hstored
  others := hothers
  pc := rfl
  general := fun _ => rfl
  hiLo := ⟨rfl, rfl⟩
  floats := fun _ => rfl
  control := ⟨rfl, rfl, rfl, rfl⟩
  inputs := ⟨rfl, rfl, rfl⟩

/-- Storing a word writes its four bytes in the byte order of the run (R44). -/
theorem wroteBytes_storeWord (s : State) (a v : Word) :
    WroteBytes s (s.storeWord a v).advance a 4 (fun k => v.extractLsb' (8 * lane s.cfg.byteOrder k) 8) :=
  wroteBytes_advance (fun _ hk => by rw [readByte_writeWord_at _ _ _ _ hk, byteOfWord_eq_lane _ _ hk])
    fun b hb => readByte_writeWord_of_ne _ _ _ v b hb

theorem wroteBytes_storeByte (s : State) (a : Word) (v : Byte) :
    WroteBytes s (s.storeByte a v).advance a 1 (fun _ => v) := by
  refine wroteBytes_advance (fun k hk => ?_) fun b hb => readByte_writeByte_of_ne _ v (hb 0 one_pos)
  obtain rfl := Nat.lt_one_iff.1 hk
  exact readByte_writeByte_self ..

end

/-! ## The statements -/

/-- Settles O36: once its checks pass, a load's next state is known, and its value is what `loadedWord_toNat` and
`loadedByte_of_written` say of memory. -/
theorem loadsReturnTheBytesOfMemory : Obligations.LoadsReturnTheBytesOfMemory := by
  intro s rt rb ft imm b0 b1 b2 b3
  refine ⟨fun hword hbytes => ⟨?lw, fun hcp1 => ?lwc1⟩, fun hbyte hb => ⟨?lb, ?lbu⟩⟩
  case lw =>
    exact ⟨_, _, exec_lw_of_granted rt rb imm hword, wroteGpr_advance s 1 rt _, loadedWord_toNat hbytes⟩
  case lwc1 =>
    exact ⟨_, _, exec_lwc1_of_granted rb ft imm hcp1 hword, wroteFpr_advance s 1 ft _, loadedWord_toNat hbytes⟩
  case lb =>
    refine ⟨_, _, exec_lb_of_granted rt rb imm hbyte, wroteGpr_advance s 1 rt _, ?_⟩
    rw [BitVec.toInt_signExtend_of_le (by omega), loadedByte_of_written hb]
  case lbu =>
    refine ⟨_, _, exec_lbu_of_granted rt rb imm hbyte, wroteGpr_advance s 1 rt _, ?_⟩
    rw [BitVec.toNat_setWidth_of_le (by omega), loadedByte_of_written hb]

/-- Settles O38: once its checks pass, a store's next state is the state with the bytes written. -/
theorem storesWriteTheirBytes : Obligations.StoresWriteTheirBytes :=
  fun s _ _ _ _ =>
    ⟨fun hword => ⟨⟨_, exec_sw_of_granted hword, wroteBytes_storeWord s _ _⟩,
        fun hcp1 => ⟨_, exec_swc1_of_granted hcp1 hword, wroteBytes_storeWord s _ _⟩⟩,
      fun hbyte => ⟨_, exec_sb_of_granted hbyte, wroteBytes_storeByte s _ _⟩⟩

end Sys2Proof.Machine

/-! # Proofs for spec/41_arithmetic_logical.md

Every instruction of this part ends in one of four shared endings. What each ending leaves is said once, in the words of
the statements; what remains of a statement is arithmetic: of overflow, of the 64-bit product, of quotient and remainder. -/

namespace Sys2Proof.Machine

section
variable {i : Instr} {s : State}

/-! ## What the endings leave -/

theorem wroteHiLo_advance (s : State) (n : Nat) (hi lo : Word) :
    WroteHiLo s ((s.setHiLo hi lo).skipDraws n).advance hi lo where
  hi := rfl
  lo := rfl
  pc := rfl
  general := fun _ => rfl
  floats := fun _ => rfl
  memory := fun _ => rfl
  control := ⟨rfl, rfl, rfl, rfl⟩
  inputs := ⟨rfl, rfl, rfl⟩

theorem wroteGpr_of_finishReg {r : GReg} {v : Word} (h : exec i s = finishReg s r v) :
    ∃ t, exec i s = .next t ∧ WroteGpr s t r v (s.pc + 4) :=
  ⟨_, h, wroteGpr_advance s 0 r v⟩

/-- An instruction that ends by writing a register completes, and what holds of the value holds of what it wrote. -/
theorem exists_wroteGpr_of_finishReg {r : GReg} {v : Word} {P : Word → Prop} (h : exec i s = finishReg s r v)
    (hv : P v) : ∃ t v, exec i s = .next t ∧ WroteGpr s t r v (s.pc + 4) ∧ P v := by
  obtain ⟨t, hnext, hwrote⟩ := wroteGpr_of_finishReg h
  exact ⟨t, v, hnext, hwrote, hv⟩

/-- An instruction that ends by writing HI and LO completes, and what holds of the values holds of what it wrote. -/
theorem exists_wroteHiLo_of_finishHiLo {hi lo : Word} {P : Word → Word → Prop} (h : exec i s = finishHiLo s hi lo)
    (hP : P hi lo) : ∃ t hi lo, exec i s = .next t ∧ WroteHiLo s t hi lo ∧ P hi lo :=
  ⟨_, hi, lo, h, wroteHiLo_advance s 0 hi lo, hP⟩

/-- HI and LO each receive a draw, and both draws are used up (R113, R117, U1, U2). -/
theorem exists_wroteHiLo_of_finishHiLoDrawn (h : exec i s = finishHiLoDrawn s) :
    ∃ t, exec i s = .next t ∧ t.draws = s.draws + 2 ∧
      WroteHiLo s t (Config.draw s.draws) (Config.draw (s.draws + 1)) :=
  ⟨_, h, rfl, wroteHiLo_advance s 2 _ _⟩

theorem finishTrapping_of_overflow {overflows : Bool} (h : overflows = true) (r : GReg) (v : Word) :
    finishTrapping s overflows r v = raise .overflow s :=
  if_pos h

theorem finishTrapping_of_fits {overflows : Bool} (h : ¬ overflows = true) (r : GReg) (v : Word) :
    finishTrapping s overflows r v = finishReg s r v :=
  if_neg h

/-- The ending of `add`, `sub`, `addi`, with overflow said by the condition `c` (R207). -/
theorem trapped_or_wroteGpr_of_finishTrapping {overflows : Bool} {r : GReg} {v : Word} {c : Prop} [Decidable c]
    (h : exec i s = finishTrapping s overflows r v) (hc : overflows = true ↔ c) :
    if c then ∃ t, exec i s = .next t ∧ Trapped s t .overflow
    else ∃ t, exec i s = .next t ∧ WroteGpr s t r v (s.pc + 4) := by
  split
  · next hoverflow =>
    exact ⟨_, h.trans (finishTrapping_of_overflow (hc.2 hoverflow) r v), trapped_trapEntry s _⟩
  · next hfits => exact wroteGpr_of_finishReg (h.trans (finishTrapping_of_fits (mt hc.1 hfits) r v))

end

/-! ## Overflow (R110, R111, R130, R207) -/

section Overflow
variable (x y : Word)

theorem outOfRange_iff (v : Int) : outOfRange v = true ↔ 2 ^ 31 ≤ v ∨ v < -2 ^ 31 := by
  simp only [outOfRange, Bool.or_eq_true, decide_eq_true_eq]
  omega

theorem not_outOfRange {v : Int} (h : -2 ^ 31 ≤ v ∧ v < 2 ^ 31) : ¬ outOfRange v = true := by
  rw [outOfRange_iff]
  omega

/-- The model's overflow is the library's. -/
theorem addOverflows_eq_saddOverflow : addOverflows x y = x.saddOverflow y := by
  rw [addOverflows, Bool.eq_iff_iff, outOfRange_iff]
  simp [BitVec.saddOverflow]

/-- The model's overflow is the library's. -/
theorem subOverflows_eq_ssubOverflow : subOverflows x y = x.ssubOverflow y := by
  rw [subOverflows, Bool.eq_iff_iff, outOfRange_iff]
  simp [BitVec.ssubOverflow]

/-- The bit condition of R110. -/
theorem addOverflows_iff_msb : addOverflows x y = true ↔ x.msb = y.msb ∧ (x + y).msb ≠ x.msb := by
  simp [addOverflows_eq_saddOverflow, BitVec.saddOverflow_eq]

/-- The bit condition of R111. -/
theorem subOverflows_iff_msb : subOverflows x y = true ↔ x.msb ≠ y.msb ∧ (x - y).msb ≠ x.msb := by
  have signs : ∀ p q r : Bool, (!p && q && r || p && !q && !r) = true ↔ p ≠ q ∧ r ≠ p := by decide
  rw [subOverflows_eq_ssubOverflow, BitVec.ssubOverflow_eq, signs]

/-- The immediate keeps its sign (R64). -/
theorem signExtImm_msb (imm : Imm16) : (signExtImm imm).msb = imm.msb := by
  simp [signExtImm, BitVec.msb_signExtend]

theorem signExtImm_toInt (imm : Imm16) : (signExtImm imm).toInt = imm.toInt :=
  BitVec.toInt_signExtend_of_le (by omega)

variable {x y}

theorem toInt_add_of_not_addOverflows (h : ¬ addOverflows x y = true) : (x + y).toInt = x.toInt + y.toInt :=
  BitVec.toInt_add_of_not_saddOverflow (addOverflows_eq_saddOverflow x y ▸ h)

theorem toInt_sub_of_not_subOverflows (h : ¬ subOverflows x y = true) : (x - y).toInt = x.toInt - y.toInt :=
  BitVec.toInt_sub_of_not_ssubOverflow (subOverflows_eq_ssubOverflow x y ▸ h)

/-- `add`, `sub`, `addi` complete when the exact result `e` fits, and write it (R110, R111, R130). -/
theorem exists_wroteGpr_of_inRange {i : Instr} {s : State} {r : GReg} {v : Word} {e : Int}
    (h : exec i s = finishTrapping s (outOfRange e) r v) (hfits : -2 ^ 31 ≤ e ∧ e < 2 ^ 31)
    (hexact : ¬ outOfRange e = true → v.toInt = e) :
    ∃ t v, exec i s = .next t ∧ WroteGpr s t r v (s.pc + 4) ∧ v.toInt = e :=
  exists_wroteGpr_of_finishReg (h.trans (finishTrapping_of_fits (not_outOfRange hfits) r v))
    (hexact (not_outOfRange hfits))

end Overflow

/-! ## Results of one word -/

/-- The difference modulo `2^32` (R115). -/
theorem toNat_sub_eq_emod (x y : Word) : ((x - y).toNat : Int) = (x.toNat - y.toNat : Int) % 2 ^ 32 := by
  rw [BitVec.toNat_sub]
  omega

/-- The value that `slt` and `slti` write (R180, R181). -/
theorem toNat_ite_signedLess (x y : Word) :
    (if signedLess x y then 1 else 0 : Word).toNat = if x.toInt < y.toInt then 1 else 0 := by
  simp only [signedLess, decide_eq_true_eq]
  split <;> rfl

/-! ## Products (R112, R116) -/

/-- `HI ∥ LO` is the doubleword whose halves were written. -/
theorem halves_append (v : BitVec 64) : (v.extractLsb' 32 32 ++ v.extractLsb' 0 32 : BitVec 64) = v := by
  rw [BitVec.extractLsb'_append_extractLsb'_eq_extractLsb' (start₂ := 32) (start₁ := 0) rfl]
  exact BitVec.extractLsb'_eq_self

/-- A signed product of two words fits 64 bits. -/
theorem toInt_ofInt_mul (x y : Word) : (BitVec.ofInt 64 (x.toInt * y.toInt)).toInt = x.toInt * y.toInt := by
  have hlo : -2 ^ (32 * 2 - 2) ≤ x.toInt * y.toInt := BitVec.le_toInt_mul_toInt
  have hhi : x.toInt * y.toInt ≤ 2 ^ (32 * 2 - 2) := BitVec.toInt_mul_toInt_le
  exact BitVec.toInt_ofInt_eq_self (by omega) (by omega) (by omega)

/-- An unsigned product of two words fits 64 bits. -/
theorem toNat_ofInt_mul (x y : Word) :
    (BitVec.ofInt 64 ((x.toNat * y.toNat : Nat) : Int)).toNat = x.toNat * y.toNat := by
  rw [BitVec.ofInt_natCast, BitVec.toNat_ofNat, Nat.mod_eq_of_lt BitVec.toNat_mul_toNat_lt]

/-! ## Quotient and remainder (R113, U23) -/

section Division
variable {a b q r : Int}

/-- The remainder that goes with `signedQuotient`; `signedQuotient_mul_add_signedRemainder` ties it to it. -/
def signedRemainder (rounding : DivRounding) (a b : Int) : Int :=
  match rounding with
  | .truncate => a.tmod b
  | .floor => a.fmod b

theorem signedQuotient_mul_add_signedRemainder (rounding : DivRounding) (a b : Int) :
    signedQuotient rounding a b * b + signedRemainder rounding a b = a := by
  cases rounding with
  | truncate => exact Int.tdiv_mul_add_tmod a b
  | floor => exact Int.fdiv_mul_add_fmod a b

/-- A flooring remainder lies between 0 and a negative divisor. -/
theorem fmod_bounds_of_neg (a : Int) (hb : b < 0) : b < a.fmod b ∧ a.fmod b ≤ 0 := by
  have hneg : (-a).fmod (-b) = -a.fmod b := Int.neg_fmod_neg a b
  have hnonneg := Int.fmod_nonneg_of_pos (-a) (neg_pos.2 hb)
  have hlt := Int.fmod_lt_of_pos (-a) (neg_pos.2 hb)
  omega

/-- A flooring remainder has the divisor's sign. -/
theorem fmod_neg_iff (hb : b ≠ 0) (hr : a.fmod b ≠ 0) : a.fmod b < 0 ↔ b < 0 := by
  obtain hneg | hpos := lt_or_gt_of_ne hb
  · have := fmod_bounds_of_neg a hneg
    omega
  · have := Int.fmod_nonneg_of_pos a hpos
    omega

/-- A truncating remainder has the dividend's sign (R113). -/
theorem tmod_neg_iff (hr : a.tmod b ≠ 0) : a.tmod b < 0 ↔ a < 0 := by
  have hsign : (a.tmod b).sign = a.sign := by
    rw [Int.sign_tmod, if_neg fun hdvd => hr (Int.tmod_eq_zero_of_dvd hdvd)]
  rw [← Int.sign_eq_neg_one_iff_neg, hsign, Int.sign_eq_neg_one_iff_neg]

theorem natAbs_signedRemainder_lt (rounding : DivRounding) (a : Int) (hb : b ≠ 0) :
    (signedRemainder rounding a b).natAbs < b.natAbs := by
  cases rounding with
  | truncate =>
    rw [signedRemainder, Int.natAbs_tmod]
    exact Nat.mod_lt _ (Int.natAbs_pos.2 hb)
  | floor =>
    rw [signedRemainder]
    obtain hneg | hpos := lt_or_gt_of_ne hb
    · have := fmod_bounds_of_neg a hneg
      omega
    · have := Int.fmod_nonneg_of_pos a hpos
      have := Int.fmod_lt_of_pos a hpos
      omega

theorem divUnspecified_iff : divUnspecified a b = true ↔ b = 0 ∨ (a = -2 ^ 31 ∧ b = -1) := by
  simp [divUnspecified]

/-- However the quotient is rounded, it fits a word, `-2^31 div -1` excepted: with `|b| = 1` it is `a` or `-a`, and with
`|b| ≥ 2` it is too small. -/
theorem quotient_inRange (ha : -2 ^ 31 ≤ a ∧ a < 2 ^ 31) (hmin : ¬ (a = -2 ^ 31 ∧ b = -1)) (hqr : q * b + r = a)
    (hr : r.natAbs < b.natAbs) : -2 ^ 31 ≤ q ∧ q < 2 ^ 31 := by
  obtain hone | hminus | hlarge : b = 1 ∨ b = -1 ∨ 2 ≤ b.natAbs := by omega
  · subst hone
    omega
  · subst hminus
    omega
  · have hqb : (q * b).natAbs = q.natAbs * b.natAbs := Int.natAbs_mul q b
    have hsmall : q.natAbs < 2 ^ 31 := by
      by_contra hq
      have := Nat.mul_le_mul_right b.natAbs (not_lt.1 hq)
      omega
    omega

theorem remainder_inRange {y : Word} {r : Int} (hr : r.natAbs < y.toInt.natAbs) : -2 ^ 31 ≤ r ∧ r < 2 ^ 31 := by
  have hlo : -2 ^ 31 ≤ y.toInt := BitVec.le_toInt y
  have hhi : y.toInt < 2 ^ 31 := BitVec.toInt_lt
  omega

theorem toInt_ofInt_of_inRange {v : Int} (h : -2 ^ 31 ≤ v ∧ v < 2 ^ 31) : (BitVec.ofInt 32 v).toInt = v :=
  BitVec.toInt_ofInt_eq_self (by omega) h.1 h.2

/-- The quotient of two words fits a word (R117). -/
theorem toNat_ofNat_div (x y : Word) : (BitVec.ofNat 32 (x.toNat / y.toNat)).toNat = x.toNat / y.toNat := by
  rw [BitVec.toNat_ofNat, Nat.mod_eq_of_lt ((Nat.div_le_self ..).trans_lt x.isLt)]

/-- The remainder of two words fits a word (R117). -/
theorem toNat_ofNat_mod (x y : Word) : (BitVec.ofNat 32 (x.toNat % y.toNat)).toNat = x.toNat % y.toNat := by
  rw [BitVec.toNat_ofNat, Nat.mod_eq_of_lt ((Nat.mod_le ..).trans_lt x.isLt)]

/-- `div` leaves draws, or the quotient and its remainder (R113). -/
theorem exec_div (s : State) (rs rt : GReg) :
    exec (.div rs rt) s =
      if divUnspecified (s.readReg rs).toInt (s.readReg rt).toInt then finishHiLoDrawn s
      else finishHiLo s
        (BitVec.ofInt 32 (signedRemainder s.cfg.divRounding (s.readReg rs).toInt (s.readReg rt).toInt))
        (BitVec.ofInt 32 (signedQuotient s.cfg.divRounding (s.readReg rs).toInt (s.readReg rt).toInt)) := by
  rw [eq_sub_of_add_eq' (signedQuotient_mul_add_signedRemainder ..)]
  rfl

end Division

/-! ## The statements -/

/-- Settles O17: the words match their rows, and the wrapped sum and difference are written. -/
theorem adduSubuResult : Obligations.AdduSubuResult :=
  ⟨fun _ => decodeWord_of_row (.addu 0 0 0), fun _ => decodeWord_of_row (.subu 0 0 0), fun _ _ _ _ =>
    ⟨exists_wroteGpr_of_finishReg rfl (BitVec.toNat_add ..), exists_wroteGpr_of_finishReg rfl (toNat_sub_eq_emod ..)⟩⟩

/-- Settles O18: the words match their rows, and the bitwise results are written. -/
theorem andOrXorResult : Obligations.AndOrXorResult :=
  ⟨fun _ => decodeWord_of_row (.and 0 0 0), fun _ => decodeWord_of_row (.or 0 0 0),
    fun _ => decodeWord_of_row (.xor 0 0 0), fun _ _ _ _ =>
    ⟨exists_wroteGpr_of_finishReg rfl fun _ => BitVec.getLsbD_and,
      exists_wroteGpr_of_finishReg rfl fun _ => BitVec.getLsbD_or,
      exists_wroteGpr_of_finishReg rfl fun _ => BitVec.getLsbD_xor⟩⟩

/-- Settles O19: the immediate of `slti` has, sign-extended, the value it had. -/
theorem norSltSltiResult : Obligations.NorSltSltiResult := by
  intro s rd rs rt imm
  refine ⟨exists_wroteGpr_of_finishReg rfl fun k hk => ?nor,
    exists_wroteGpr_of_finishReg rfl (toNat_ite_signedLess ..), exists_wroteGpr_of_finishReg rfl ?slti⟩
  case nor => simp [hk]
  case slti => rw [toNat_ite_signedLess, signExtImm_toInt]

/-- Settles O20: without overflow the library's sum and difference are exact. -/
theorem addSubAddiCompleteWhenInRange : Obligations.AddSubAddiCompleteWhenInRange := by
  intro s rd rs rt imm
  refine ⟨fun hfits => ?add, fun hfits => ?sub, fun hfits => ?addi⟩
  case add => exact exists_wroteGpr_of_inRange rfl hfits toInt_add_of_not_addOverflows
  case sub => exact exists_wroteGpr_of_inRange rfl hfits toInt_sub_of_not_subOverflows
  case addi =>
    rw [← signExtImm_toInt] at hfits ⊢
    exact exists_wroteGpr_of_inRange rfl hfits toInt_add_of_not_addOverflows

/-- Settles O21: the model's overflow of the exact result is the bit condition of the wrapped one. -/
theorem addSubAddiTrapOnOverflow : Obligations.AddSubAddiTrapOnOverflow :=
  fun _ _ _ _ imm =>
    ⟨trapped_or_wroteGpr_of_finishTrapping rfl (addOverflows_iff_msb ..),
      trapped_or_wroteGpr_of_finishTrapping rfl (subOverflows_iff_msb ..),
      trapped_or_wroteGpr_of_finishTrapping rfl (signExtImm_msb imm ▸ addOverflows_iff_msb ..)⟩

/-- Settles O22: HI and LO are the halves of the product, which fits 64 bits. -/
theorem multiplyLeavesTheExactProduct : Obligations.MultiplyLeavesTheExactProduct := by
  intro s rs rt
  refine ⟨exists_wroteHiLo_of_finishHiLo rfl ?mult, exists_wroteHiLo_of_finishHiLo rfl ?multu⟩
  case mult => rw [halves_append, toInt_ofInt_mul]
  case multu => rw [halves_append, toNat_ofInt_mul]

/-- Settles O23: quotient and remainder fit a word, so HI and LO hold them exactly, under either rounding. -/
theorem signedDivideResult : Obligations.SignedDivideResult := by
  intro s rs rt hzero hmin
  have hspecified := mt divUnspecified_iff.1 (not_or.2 ⟨hzero, hmin⟩)
  have hdivides := signedQuotient_mul_add_signedRemainder s.cfg.divRounding (s.readReg rs).toInt (s.readReg rt).toInt
  have hsmall := natAbs_signedRemainder_lt s.cfg.divRounding (s.readReg rs).toInt hzero
  have hquotient := quotient_inRange ⟨BitVec.le_toInt _, BitVec.toInt_lt⟩ hmin hdivides hsmall
  refine exists_wroteHiLo_of_finishHiLo ((exec_div s rs rt).trans (if_neg hspecified)) ?_
  rw [toInt_ofInt_of_inRange hquotient, toInt_ofInt_of_inRange (remainder_inRange hsmall)]
  refine ⟨hdivides.symm, hsmall, fun htruncate hr => ?truncate, fun hfloor hr => ?floor⟩
  case truncate =>
    rw [htruncate] at hr ⊢
    exact tmod_neg_iff hr
  case floor =>
    rw [hfloor] at hr ⊢
    exact fmod_neg_iff hzero hr

/-- Settles O24: quotient and remainder fit a word, so HI and LO hold them exactly. -/
theorem unsignedDivideResult : Obligations.UnsignedDivideResult := by
  intro s rs rt hzero
  refine exists_wroteHiLo_of_finishHiLo (if_neg hzero) ?_
  rw [toNat_ofNat_div, toNat_ofNat_mod]
  exact ⟨(Nat.div_add_mod' ..).symm, Nat.mod_lt _ (Nat.pos_of_ne_zero hzero)⟩

/-- Settles O25: the excepted operands take the ending that draws. -/
theorem divideUnspecifiedLeavesDraws : Obligations.DivideUnspecifiedLeavesDraws :=
  fun s rs rt =>
    ⟨fun h => exists_wroteHiLo_of_finishHiLoDrawn ((exec_div s rs rt).trans (if_pos (divUnspecified_iff.2 h))),
      fun h => exists_wroteHiLo_of_finishHiLoDrawn (if_pos h)⟩

end Sys2Proof.Machine

/-! # Proofs for spec/42_immediate.md

Every instruction of this part ends by writing a register. What an immediate contributes to the value is said bit by bit
where it is zero-extended and as a number where it is placed; `addiu` computes the sum that an effective address is. The
reserved words with the opcode of `lui` are read off the table: every row fixes the opcode. -/

namespace Sys2Proof

/-! ## The opcode in the table (R70, R133) -/

theorem opcodeTable_mask_opcode : ∀ r ∈ opcodeTable, r.mask.extractLsb' 26 6 = BitVec.allOnes 6 := by decide

/-- A row with the opcode of `lui` fixes bits 25..21 to zero (R133). -/
theorem opcodeTable_s_of_lui_opcode : ∀ r ∈ opcodeTable, r.pat.extractLsb' 26 6 = 15#6 →
    r.mask.extractLsb' 21 5 = BitVec.allOnes 5 ∧ r.pat.extractLsb' 21 5 = 0#5 := by decide

/-- A word that decodes has the opcode of its row. -/
theorem opcode_of_decodeWord {w : Word} {i : Instr} (h : decodeWord w = some i) :
    w.extractLsb' 26 6 = i.row.pat.extractLsb' 26 6 :=
  extractLsb'_of_and_eq (row_of_decodeWord h).1 (opcodeTable_mask_opcode _ (row_mem i))

/-- With the opcode of `lui`, only words whose bits 25..21 are zero are instructions (R133, R80). -/
theorem decodeWord_eq_none_of_lui_opcode {w : Word} (hop : w.extractLsb' 26 6 = 15#6)
    (hs : w.extractLsb' 21 5 ≠ 0#5) : decodeWord w = none := by
  refine Option.eq_none_iff_forall_ne_some.2 fun i hi => hs ?_
  obtain ⟨hmask, hpat⟩ := opcodeTable_s_of_lui_opcode _ (row_mem i) ((opcode_of_decodeWord hi).symm.trans hop)
  exact (extractLsb'_of_and_eq (row_of_decodeWord hi).1 hmask).trans hpat

end Sys2Proof

namespace Sys2Proof.Machine

/-! ## The immediate in a word (R64) -/

section
variable (x : Word) (imm : Imm16)

/-- Zero extension adds no bit, so an immediate and its extension have the same bits at every position. -/
theorem zeroExtImm_getLsbD (k : Nat) : (zeroExtImm imm).getLsbD k = imm.getLsbD k := by
  rw [zeroExtImm, BitVec.getLsbD_setWidth]
  obtain hk | hk := lt_or_ge k 16
  · simp [show k < 32 by omega]
  · simp [hk]

theorem upperImm_toNat : (upperImm imm).toNat = imm.toNat * 2 ^ 16 := by
  rw [upperImm, BitVec.toNat_append, Nat.shiftLeft_eq]
  simp

/-- The sum that `addiu` writes is the one that an effective address is (R57, R131). -/
theorem toNat_add_signExtImm (s : State) (rs : GReg) :
    ((s.readReg rs + signExtImm imm).toNat : Int) = ((s.readReg rs).toNat + imm.toInt) % 2 ^ 32 :=
  effectiveAddressIsTheWrappedSum s rs imm

/-- A conjunction with a zero-extended immediate has no bit in the high half (R132). -/
theorem and_zeroExtImm_getLsbD (k : Nat) :
    (x &&& zeroExtImm imm).getLsbD k = (decide (k < 16) && x.getLsbD k && imm.getLsbD k) := by
  rw [BitVec.getLsbD_and, zeroExtImm_getLsbD]
  obtain hk | hk := lt_or_ge k 16
  · simp [hk]
  · simp [BitVec.getLsbD_of_ge imm k hk]

/-- A disjunction with a zero-extended immediate keeps the high half (R134). -/
theorem or_zeroExtImm_getLsbD (k : Nat) :
    (x ||| zeroExtImm imm).getLsbD k = if k < 16 then x.getLsbD k || imm.getLsbD k else x.getLsbD k := by
  rw [BitVec.getLsbD_or, zeroExtImm_getLsbD]
  split
  · rfl
  · next hk => rw [BitVec.getLsbD_of_ge imm k (not_lt.1 hk), Bool.or_false]

/-- An exclusive disjunction with a zero-extended immediate keeps the high half (R135). -/
theorem xor_zeroExtImm_getLsbD (k : Nat) :
    (x ^^^ zeroExtImm imm).getLsbD k = if k < 16 then x.getLsbD k != imm.getLsbD k else x.getLsbD k := by
  rw [BitVec.getLsbD_xor, zeroExtImm_getLsbD]
  split
  · rfl
  · next hk => rw [BitVec.getLsbD_of_ge imm k (not_lt.1 hk), Bool.xor_false]

end

/-! ## The statement -/

/-- Settles O26: the words match their rows, the words that share only the opcode of `lui` match none, and each value is
written as its lemma says it. -/
theorem immediateResult : Obligations.ImmediateResult := by
  refine ⟨fun w => ⟨decodeWord_of_row (.addiu 0 0 0), decodeWord_of_row (.andi 0 0 0), decodeWord_of_row (.lui 0 0),
    fun hop => decodeWord_eq_none_of_lui_opcode (extractLsb'_of_and_eq hop (by decide)),
    decodeWord_of_row (.ori 0 0 0), decodeWord_of_row (.xori 0 0 0)⟩, fun s rt rs imm => ?_⟩
  exact ⟨exists_wroteGpr_of_finishReg rfl (toNat_add_signExtImm imm s rs),
    exists_wroteGpr_of_finishReg rfl (and_zeroExtImm_getLsbD _ imm),
    exists_wroteGpr_of_finishReg rfl (upperImm_toNat imm),
    exists_wroteGpr_of_finishReg rfl (or_zeroExtImm_getLsbD _ imm),
    exists_wroteGpr_of_finishReg rfl (xor_zeroExtImm_getLsbD _ imm)⟩

end Sys2Proof.Machine

/-! # Proofs for spec/43_hilo_moves.md

A move from HI or LO ends by writing a register. A move to one of them ends by writing the pair, with the other one as it
was. -/

namespace Sys2Proof.Machine

/-- The counterpart of `wroteGpr_of_finishReg` for HI and LO. -/
theorem wroteHiLo_of_finishHiLo {i : Instr} {s : State} {hi lo : Word} (h : exec i s = finishHiLo s hi lo) :
    ∃ t, exec i s = .next t ∧ WroteHiLo s t hi lo :=
  ⟨_, h, wroteHiLo_advance s 0 hi lo⟩

/-- Settles O27: the words match their rows; a move to HI or LO writes the other one back as it was. -/
theorem hiLoMoves : Obligations.HiLoMoves := by
  refine ⟨fun w => ⟨decodeWord_of_row (.mfhi 0), decodeWord_of_row (.mthi 0), decodeWord_of_row (.mflo 0),
    decodeWord_of_row (.mtlo 0)⟩, fun s r => ⟨?mfhi, ?mthi, ?mflo, ?mtlo⟩⟩
  case mfhi => exact wroteGpr_of_finishReg (v := s.hi) rfl
  case mthi => exact wroteHiLo_of_finishHiLo (lo := s.lo) rfl
  case mflo => exact wroteGpr_of_finishReg (v := s.lo) rfl
  case mtlo => exact wroteHiLo_of_finishHiLo (hi := s.hi) rfl

end Sys2Proof.Machine

/-! # Proofs for spec/44_shifts.md

Every shift ends by writing a register. What a shift by `n` does to the number a word stands for is said once for each
direction; a variable shift is then the same shift, by its register modulo 32. -/

namespace Sys2Proof.Machine

/-! ## Shifts as arithmetic (R150 to R152) -/

section
variable (x : Word) (n : Shamt)

theorem shiftLeft_toNat : (shiftLeft x n).toNat = x.toNat * 2 ^ n.toNat % 2 ^ 32 := by
  rw [shiftLeft, BitVec.toNat_shiftLeft, Nat.shiftLeft_eq]

theorem shiftRightLogical_toNat : (shiftRightLogical x n).toNat = x.toNat / 2 ^ n.toNat := by
  rw [shiftRightLogical, BitVec.toNat_ushiftRight, Nat.shiftRight_eq_div_pow]

/-- Copies of the sign bit enter at the top, so the signed quotient is rounded toward minus infinity (R152). -/
theorem shiftRightArith_toInt : (shiftRightArith x n).toInt = x.toInt / 2 ^ n.toNat := by
  rw [shiftRightArith, BitVec.toInt_sshiftRight, Int.shiftRight_eq_div_pow]
  norm_cast

/-- Bits 4..0 of a word are the word modulo 32 (conflict C1, D19). -/
theorem shiftAmount_toNat : (shiftAmount x).toNat = x.toNat % 32 := by
  rw [shiftAmount, BitVec.extractLsb'_toNat, Nat.shiftRight_zero]

end

/-! ## The statements -/

/-- Settles O28: the words match their rows, and each shift writes its arithmetic result. -/
theorem immediateShifts : Obligations.ImmediateShifts := by
  refine ⟨fun w => ⟨decodeWord_of_row (.sll 0 0 0), decodeWord_of_row (.srl 0 0 0), decodeWord_of_row (.sra 0 0 0)⟩,
    fun s rd rt sh => ⟨?sll, ?srl, ?sra⟩⟩
  case sll => exact exists_wroteGpr_of_finishReg rfl (shiftLeft_toNat _ sh)
  case srl => exact exists_wroteGpr_of_finishReg rfl (shiftRightLogical_toNat _ sh)
  case sra => exact exists_wroteGpr_of_finishReg rfl (shiftRightArith_toInt _ sh)

/-- Settles O29: the register modulo 32 is the amount the model shifts by. -/
theorem variableShifts : Obligations.VariableShifts := by
  intro s rd rt rs
  rw [← shiftAmount_toNat]
  refine ⟨?sllv, ?srlv, ?srav⟩
  case sllv => exact exists_wroteGpr_of_finishReg rfl (shiftLeft_toNat ..)
  case srlv => exact exists_wroteGpr_of_finishReg rfl (shiftRightLogical_toNat ..)
  case srav => exact exists_wroteGpr_of_finishReg rfl (shiftRightArith_toInt ..)

end Sys2Proof.Machine

/-! # Proofs for spec/45_floating_point.md

The low 31 bits of a pattern number the magnitudes of the format in increasing order (`unitsOfMag_strictMono`), the
infinity being the first number that has no finite value. Rounding is first said without that end: `fpRoundMag` without its
cap gives the number of the nearest magnitude, ties to the even number (`nearestMag_roundedMag`). The overflow bound, the
exactness clause and the statements about the six operations are read off it. -/

namespace Sys2Proof.Machine

/-! ## The fields of a pattern (R168) -/

section
variable {w v : Word}

/-- The low 31 bits of a pattern, as the number of its magnitude. -/
def fpMag (w : Word) : Nat := w.toNat % 2 ^ 31

theorem fpMag_lt (w : Word) : fpMag w < 2 ^ 31 := Nat.mod_lt _ (by decide)

theorem fpExponent_eq (w : Word) : fpExponent w = fpMag w / 2 ^ 23 := by
  simp only [fpExponent, fpMag, BitVec.extractLsb'_toNat, Nat.shiftRight_eq_div_pow]
  omega

theorem fpFraction_eq (w : Word) : fpFraction w = fpMag w % 2 ^ 23 := by
  simp only [fpFraction, fpMag, BitVec.extractLsb'_toNat, Nat.shiftRight_eq_div_pow]
  omega

theorem fpMag_eq (w : Word) : fpMag w = fpExponent w * 2 ^ 23 + fpFraction w := by
  rw [fpExponent_eq, fpFraction_eq, Nat.div_add_mod']

theorem fpSign_iff : fpSign w = true ↔ 2 ^ 31 ≤ w.toNat := by
  rw [fpSign, BitVec.msb_eq_decide, decide_eq_true_eq]

theorem fpIsNaN_iff : fpIsNaN w = true ↔ 0x7F800000 < fpMag w := by
  have := fpMag_lt w
  simp only [fpIsNaN, Bool.and_eq_true, beq_iff_eq, bne_iff_ne, fpExponent_eq, fpFraction_eq]
  omega

theorem fpIsInf_iff : fpIsInf w = true ↔ fpMag w = 0x7F800000 := by
  simp only [fpIsInf, Bool.and_eq_true, beq_iff_eq, fpExponent_eq, fpFraction_eq]
  omega

theorem fpIsZero_iff : fpIsZero w = true ↔ fpMag w = 0 := by
  simp only [fpIsZero, Bool.and_eq_true, beq_iff_eq, fpExponent_eq, fpFraction_eq]
  omega

theorem fpFinite_iff : FpFinite w ↔ fpMag w < 0x7F800000 := by
  have := fpMag_lt w
  rw [FpFinite, fpExponent_eq]
  omega

theorem FpFinite.not_nan (h : FpFinite w) : fpIsNaN w = false :=
  Bool.eq_false_iff.2 fun hnan => by have := fpIsNaN_iff.1 hnan; have := fpFinite_iff.1 h; omega

theorem FpFinite.not_inf (h : FpFinite w) : fpIsInf w = false :=
  Bool.eq_false_iff.2 fun hinf => by have := fpIsInf_iff.1 hinf; have := fpFinite_iff.1 h; omega

theorem fpFinite_of_number (hnan : fpIsNaN w = false) (hinf : fpIsInf w = false) : FpFinite w := by
  have := mt fpIsNaN_iff.2 (Bool.eq_false_iff.1 hnan)
  have := mt fpIsInf_iff.2 (Bool.eq_false_iff.1 hinf)
  exact fpFinite_iff.2 (by omega)

theorem fpIsNaN_of_inf (h : fpIsInf w = true) : fpIsNaN w = false :=
  Bool.eq_false_iff.2 fun hnan => by have := fpIsNaN_iff.1 hnan; have := fpIsInf_iff.1 h; omega

theorem fpIsZero_of_inf (h : fpIsInf w = true) : fpIsZero w = false :=
  Bool.eq_false_iff.2 fun hzero => by have := fpIsZero_iff.1 hzero; have := fpIsInf_iff.1 h; omega

/-- A pattern is its sign and its magnitude. -/
theorem eq_of_fpSign_of_fpMag (hsign : fpSign w = fpSign v) (hmag : fpMag w = fpMag v) : w = v := by
  have hw := w.isLt
  have hv := v.isLt
  have hhigh : 2 ^ 31 ≤ w.toNat ↔ 2 ^ 31 ≤ v.toNat := by rw [← fpSign_iff, ← fpSign_iff, hsign]
  simp only [fpMag] at hmag
  exact BitVec.eq_of_toNat_eq (by omega)

/-- Bit 0 of a pattern is the parity of its magnitude's number. -/
theorem getLsbD_zero_eq_false_iff : w.getLsbD 0 = false ↔ fpMag w % 2 = 0 := by
  rw [BitVec.getLsbD, Nat.testBit_zero, decide_eq_false_iff_not, fpMag]
  omega

/-! ## Packing a sign and a magnitude -/

theorem fpSign_fpPack (neg : Bool) (m : Nat) : fpSign (fpPack neg m) = neg :=
  BitVec.msb_append.trans (by simp)

theorem fpMag_fpPack (neg : Bool) {m : Nat} (hm : m < 2 ^ 31) : fpMag (fpPack neg m) = m := by
  rw [fpMag, fpPack, BitVec.toNat_append, BitVec.toNat_ofNat, Nat.mod_eq_of_lt hm, ← Nat.shiftLeft_add_eq_or_of_lt hm,
    Nat.shiftLeft_eq]
  omega

@[simp] theorem fpSign_fpInf (neg : Bool) : fpSign (fpInf neg) = neg := fpSign_fpPack ..

@[simp] theorem fpIsInf_fpInf (neg : Bool) : fpIsInf (fpInf neg) = true :=
  fpIsInf_iff.2 (fpMag_fpPack neg (by decide))

@[simp] theorem fpSign_fpZero (neg : Bool) : fpSign (fpZero neg) = neg := fpSign_fpPack ..

@[simp] theorem fpMag_fpZero (neg : Bool) : fpMag (fpZero neg) = 0 := fpMag_fpPack neg (by decide)

@[simp] theorem fpIsZero_fpZero (neg : Bool) : fpIsZero (fpZero neg) = true := fpIsZero_iff.2 (fpMag_fpZero neg)

theorem fpFinite_of_zero (h : fpIsZero w = true) : FpFinite w :=
  fpFinite_iff.2 (by rw [fpIsZero_iff.1 h]; decide)

/-! ## The other sign -/

@[simp] theorem fpExponent_fpNegate (w : Word) : fpExponent (fpNegate w) = fpExponent w := by
  simp [fpExponent, fpNegate, BitVec.extractLsb'_xor]

@[simp] theorem fpFraction_fpNegate (w : Word) : fpFraction (fpNegate w) = fpFraction w := by
  simp [fpFraction, fpNegate, BitVec.extractLsb'_xor]

@[simp] theorem fpSign_fpNegate (w : Word) : fpSign (fpNegate w) = !fpSign w := by
  rw [fpSign, fpNegate, BitVec.msb_xor, show (0x80000000 : Word).msb = true from rfl, Bool.xor_true, fpSign]

@[simp] theorem fpIsNaN_fpNegate (w : Word) : fpIsNaN (fpNegate w) = fpIsNaN w := by
  simp [fpIsNaN]

@[simp] theorem fpIsInf_fpNegate (w : Word) : fpIsInf (fpNegate w) = fpIsInf w := by
  simp [fpIsInf]

theorem FpFinite.negate (h : FpFinite w) : FpFinite (fpNegate w) := by
  simpa [FpFinite] using h

@[simp] theorem fpMagUnits_fpNegate (w : Word) : fpMagUnits (fpNegate w) = fpMagUnits w := by
  simp [fpMagUnits]

@[simp] theorem fpUnits_fpNegate (w : Word) : fpUnits (fpNegate w) = -fpUnits w := by
  cases h : fpSign w <;> simp [fpUnits, h]

/-! ## The NaN of a draw (R169) -/

/-- Setting the exponent's bits, and perhaps bits of the fraction, gives the exponent of the NaNs and infinities. -/
theorem fpExponent_or {d c : Word} (hc : c.extractLsb' 23 8 = 255#8) : fpExponent (d ||| c) = 255 := by
  rw [fpExponent, BitVec.extractLsb'_or, hc, show 255#8 = BitVec.allOnes 8 from rfl, BitVec.or_allOnes]
  rfl

theorem fpIsNaN_fpNaN (d : Word) : fpIsNaN (fpNaN d) = true := by
  unfold fpNaN
  split
  · next hfrac => simp [fpIsNaN, fpExponent_or, fpFraction, BitVec.extractLsb'_or, hfrac]
  · next hfrac =>
    have hne := mt BitVec.eq_of_toNat_eq hfrac
    simpa [fpIsNaN, fpExponent_or, fpFraction, BitVec.extractLsb'_or] using hne

theorem fpNaN_of_nan {d : Word} (h : fpIsNaN d = true) : fpNaN d = d := by
  simp only [fpIsNaN, Bool.and_eq_true, beq_iff_eq, bne_iff_ne] at h
  obtain ⟨hexp, hfrac⟩ := h
  have hfield : d.extractLsb' 0 23 ≠ 0 := fun hzero => hfrac (by rw [fpFraction, hzero]; rfl)
  rw [fpNaN, if_neg hfield]
  refine eq_of_fpSign_of_fpMag (by simp [fpSign, show (0x7F800000#32).msb = false from rfl]) ?_
  rw [fpMag_eq, fpMag_eq, hexp, fpExponent_or rfl]
  simp [fpFraction, BitVec.extractLsb'_or]

end

/-! ## The magnitudes in increasing order (R168) -/

/-- The value of the `m`-th magnitude in units of `2^-149`, going on past the largest finite one. -/
def unitsOfMag (m : Nat) : Nat := if m < 2 ^ 23 then m else (2 ^ 23 + m % 2 ^ 23) * 2 ^ (m / 2 ^ 23 - 1)

theorem fpMagUnits_eq (w : Word) : fpMagUnits w = unitsOfMag (fpMag w) := by
  have hzero : fpMag w / 2 ^ 23 = 0 ↔ fpMag w < 2 ^ 23 := Nat.div_eq_zero_iff_lt (by decide)
  simp only [fpMagUnits, unitsOfMag, fpExponent_eq, fpFraction_eq, hzero]
  split
  · next h => exact Nat.mod_eq_of_lt h
  · rfl

/-- A significand `g` on the grid of `2^k` units has the number `k * 2^23 + g`; `g = 2^24` is the first magnitude of the
next grid, so a carry moves into the exponent. -/
theorem unitsOfMag_grid {k g : Nat} (hg : g ≤ 2 ^ 24) (hk : k = 0 ∨ 2 ^ 23 ≤ g) :
    unitsOfMag (k * 2 ^ 23 + g) = g * 2 ^ k := by
  unfold unitsOfMag
  split
  · next hsmall =>
    obtain rfl : k = 0 := by omega
    omega
  next hlarge =>
  obtain hg24 | rfl := Nat.lt_or_eq_of_le hg
  · have hexp : (k * 2 ^ 23 + g) / 2 ^ 23 - 1 = k := by omega
    have hfrac : 2 ^ 23 + (k * 2 ^ 23 + g) % 2 ^ 23 = g := by omega
    rw [hexp, hfrac]
  · have hexp : (k * 2 ^ 23 + 2 ^ 24) / 2 ^ 23 - 1 = k + 1 := by omega
    have hfrac : 2 ^ 23 + (k * 2 ^ 23 + 2 ^ 24) % 2 ^ 23 = 2 ^ 23 := by omega
    rw [hexp, hfrac]
    ring

/-- Every number is a grid and a significand on it. -/
theorem exists_grid (m : Nat) : ∃ k g, m = k * 2 ^ 23 + g ∧ g < 2 ^ 24 ∧ (k = 0 ∨ 2 ^ 23 ≤ g) := by
  obtain h | h := Nat.lt_or_ge m (2 ^ 23)
  · exact ⟨0, m, by omega, by omega, .inl rfl⟩
  · exact ⟨m / 2 ^ 23 - 1, 2 ^ 23 + m % 2 ^ 23, by omega, by omega, .inr (by omega)⟩

theorem unitsOfMag_strictMono : StrictMono unitsOfMag := by
  refine strictMono_nat_of_lt_succ fun m => ?_
  obtain ⟨k, g, rfl, hg, hk⟩ := exists_grid m
  rw [unitsOfMag_grid hg.le hk, Nat.add_assoc, unitsOfMag_grid hg (hk.imp_right (by omega))]
  exact Nat.mul_lt_mul_of_pos_right (Nat.lt_succ_self g) (Nat.two_pow_pos k)

theorem unitsOfMag_eq_zero_iff {m : Nat} : unitsOfMag m = 0 ↔ m = 0 :=
  unitsOfMag_strictMono.injective.eq_iff (b := 0)

theorem fpMagUnits_eq_iff {w v : Word} : fpMagUnits w = fpMagUnits v ↔ fpMag w = fpMag v := by
  rw [fpMagUnits_eq, fpMagUnits_eq, unitsOfMag_strictMono.injective.eq_iff]

theorem fpMagUnits_eq_zero_iff {w : Word} : fpMagUnits w = 0 ↔ fpIsZero w = true := by
  rw [fpMagUnits_eq, unitsOfMag_eq_zero_iff, fpIsZero_iff]

theorem unitsOfMag_largest : unitsOfMag 0x7F7FFFFF = (2 ^ 24 - 1) * 2 ^ 253 :=
  unitsOfMag_grid (k := 253) (g := 2 ^ 24 - 1) (by decide) (by decide)

/-- The infinity stands where the next magnitude would be. -/
theorem unitsOfMag_infinity : unitsOfMag 0x7F800000 = 2 ^ 24 * 2 ^ 253 :=
  unitsOfMag_grid (k := 253) (g := 2 ^ 24) (by decide) (by decide)

theorem FpFinite.fpMagUnits_le {w : Word} (h : FpFinite w) : fpMagUnits w ≤ (2 ^ 24 - 1) * 2 ^ 253 := by
  have := fpFinite_iff.1 h
  rw [fpMagUnits_eq, ← unitsOfMag_largest]
  exact unitsOfMag_strictMono.monotone (by omega)

/-! ## Rounding to the nearest multiple (R167, R168) -/

/-- Rounding moves by at most half a step, and by half a step only to an even multiple. -/
theorem roundHalfEven_near (num : Nat) {den : Nat} (hden : 0 < den) :
    2 * ((num : Int) - roundHalfEven num den * den).natAbs ≤ den ∧
      (2 * ((num : Int) - roundHalfEven num den * den).natAbs = den → roundHalfEven num den % 2 = 0) := by
  have hlt := Nat.mod_lt num hden
  have hdiv : (num : Int) = (num / den : Nat) * den + (num % den : Nat) := by
    exact_mod_cast (Nat.div_add_mod' num den).symm
  have hup : ((num / den + 1 : Nat) : Int) * den = (num / den : Nat) * den + den := by push_cast; ring
  simp only [roundHalfEven]
  split
  · omega
  split
  · rw [hup]; omega
  split
  · omega
  · rw [hup]; omega

theorem roundHalfEven_bounds (num den : Nat) :
    num / den ≤ roundHalfEven num den ∧ roundHalfEven num den ≤ num / den + 1 := by
  simp only [roundHalfEven]
  split_ifs <;> omega

/-- No multiple lies nearer, and of two equally near ones the even one is taken. -/
theorem roundHalfEven_nearest (num : Nat) {den : Nat} (hden : 0 < den) (g : Nat) :
    ((num : Int) - roundHalfEven num den * den).natAbs ≤ ((num : Int) - g * den).natAbs ∧
      (g ≠ roundHalfEven num den →
        ((num : Int) - roundHalfEven num den * den).natAbs = ((num : Int) - g * den).natAbs →
        roundHalfEven num den % 2 = 0) := by
  obtain ⟨hhalf, heven⟩ := roundHalfEven_near num hden
  generalize roundHalfEven num den = r at *
  obtain rfl | hne := eq_or_ne g r
  · exact ⟨le_rfl, fun h => absurd rfl h⟩
  have hstep : den ≤ ((g : Int) * den - r * den).natAbs := by
    rw [← sub_mul, Int.natAbs_mul, Int.natAbs_natCast]
    exact Nat.le_mul_of_pos_left _ (by omega)
  constructor
  · omega
  · intro _ h; exact heven (by omega)

/-! ## Rounding to the nearest magnitude (R168) -/

/-- The grid `fpRoundMag` rounds to is that of `2^roundShift` units. -/
def roundShift (num den : Nat) : Nat := if num / den < 2 ^ 24 then 0 else (num / den).log2 - 23

/-- `fpRoundMag` without its cap at the infinity. -/
def roundedMag (num den : Nat) : Nat :=
  roundShift num den * 2 ^ 23 + roundHalfEven num (den * 2 ^ roundShift num den)

theorem fpRoundMag_eq (num den : Nat) : fpRoundMag num den = min (roundedMag num den) 0x7F800000 := rfl

/-- On its grid the value has a significand of 24 bits, with a top bit but on the finest grid. -/
theorem roundShift_spec (num : Nat) {den : Nat} (hden : 0 < den) :
    num < 2 ^ 24 * (den * 2 ^ roundShift num den) ∧
      (roundShift num den = 0 ∨ 2 ^ 23 * (den * 2 ^ roundShift num den) ≤ num) := by
  unfold roundShift
  split
  · next h =>
    rw [Nat.div_lt_iff_lt_mul hden] at h
    exact ⟨by omega, .inl rfl⟩
  · next h =>
    have hq : num / den ≠ 0 := by omega
    have hlog : 24 ≤ (num / den).log2 := (Nat.le_log2 hq).2 (by omega)
    obtain ⟨k, hk⟩ := Nat.exists_eq_add_of_le (show 23 ≤ (num / den).log2 by omega)
    have hlo := Nat.log2_self_le hq
    have hhi := Nat.lt_log2_self (n := num / den)
    rw [hk] at hlo hhi ⊢
    rw [Nat.le_div_iff_mul_le hden] at hlo
    rw [Nat.div_lt_iff_lt_mul hden] at hhi
    rw [Nat.add_sub_cancel_left]
    refine ⟨hhi.trans_eq ?_, .inr (hlo.trans_eq' ?_)⟩ <;> ring

/-- The distance of the `m`-th magnitude from `num / den` units, times `den`. -/
def magError (num den m : Nat) : Nat := ((num : Int) - unitsOfMag m * den).natAbs

/-- The `m`-th magnitude is the nearest to `num / den` units; of two equally near ones it has the even number. -/
structure NearestMag (num den m : Nat) : Prop where
  nearest : ∀ n, magError num den m ≤ magError num den n
  even : ∀ n, n ≠ m → magError num den m = magError num den n → m % 2 = 0

theorem unitsOfMag_roundedMag (num : Nat) {den : Nat} (hden : 0 < den) :
    unitsOfMag (roundedMag num den) =
      roundHalfEven num (den * 2 ^ roundShift num den) * 2 ^ roundShift num den := by
  obtain ⟨hhi, hlo⟩ := roundShift_spec num hden
  have hstep : 0 < den * 2 ^ roundShift num den := Nat.mul_pos hden (Nat.two_pow_pos _)
  obtain ⟨hle, hge⟩ := roundHalfEven_bounds num (den * 2 ^ roundShift num den)
  rw [← Nat.div_lt_iff_lt_mul hstep] at hhi
  rw [← Nat.le_div_iff_mul_le hstep] at hlo
  exact unitsOfMag_grid (by omega) (hlo.imp_right (by omega))

/-- Every magnitude is on the grid of `2^k` units, or below `2^23` steps of that grid. -/
theorem unitsOfMag_on_grid_or_lt (n k : Nat) : (∃ g, unitsOfMag n = g * 2 ^ k) ∨ unitsOfMag n < 2 ^ 23 * 2 ^ k := by
  obtain ⟨j, g, rfl, hg, hj⟩ := exists_grid n
  rw [unitsOfMag_grid hg.le hj]
  obtain h | h := Nat.lt_or_ge j k
  · refine .inr ?_
    obtain ⟨i, rfl⟩ := Nat.exists_eq_add_of_lt h
    calc g * 2 ^ j < 2 ^ 24 * 2 ^ j := Nat.mul_lt_mul_of_pos_right hg (Nat.two_pow_pos j)
      _ ≤ 2 ^ 24 * 2 ^ j * 2 ^ i := Nat.le_mul_of_pos_right _ (Nat.two_pow_pos i)
      _ = 2 ^ 23 * 2 ^ (j + i + 1) := by ring
  · obtain ⟨i, rfl⟩ := Nat.exists_eq_add_of_le h
    exact .inl ⟨g * 2 ^ i, by ring⟩

/-- Every magnitude has a multiple of the rounding step at least as near: itself when it is on the grid, else `2^23` steps,
for it lies below them and the value does not. -/
theorem exists_step_near (num : Nat) {den : Nat} (hden : 0 < den) (n : Nat) :
    ∃ g : Nat, ((num : Int) - g * (den * 2 ^ roundShift num den : Nat)).natAbs ≤ magError num den n ∧
      (((num : Int) - g * (den * 2 ^ roundShift num den : Nat)).natAbs = magError num den n →
        unitsOfMag n = g * 2 ^ roundShift num den) := by
  obtain ⟨-, hlo⟩ := roundShift_spec num hden
  generalize roundShift num den = k at *
  have hon : ∀ g, unitsOfMag n = g * 2 ^ k →
      ((num : Int) - g * (den * 2 ^ k : Nat)).natAbs = magError num den n := fun g hg => by
    rw [magError, hg]
    push_cast
    ring_nf
  obtain ⟨g, hg⟩ | hbelow := unitsOfMag_on_grid_or_lt n k
  · exact ⟨g, (hon g hg).le, fun _ => hg⟩
  obtain rfl | hlo := hlo
  · exact ⟨unitsOfMag n, (hon _ (by simp)).le, fun _ => by simp⟩
  · have hlt : unitsOfMag n * den < 2 ^ 23 * (den * 2 ^ k) := by
      calc unitsOfMag n * den < 2 ^ 23 * 2 ^ k * den := Nat.mul_lt_mul_of_pos_right hbelow hden
        _ = 2 ^ 23 * (den * 2 ^ k) := by ring
    refine ⟨2 ^ 23, ?_⟩
    simp only [magError, ← Nat.cast_mul]
    generalize unitsOfMag n * den = x at *
    generalize den * 2 ^ k = y at *
    omega

/-- Rounding on the grid is rounding among all magnitudes. -/
theorem nearestMag_roundedMag (num : Nat) {den : Nat} (hden : 0 < den) : NearestMag num den (roundedMag num den) := by
  have hunits := unitsOfMag_roundedMag num hden
  have herror : magError num den (roundedMag num den) =
      ((num : Int) - roundHalfEven num (den * 2 ^ roundShift num den) * (den * 2 ^ roundShift num den : Nat)).natAbs := by
    rw [magError, hunits]
    push_cast
    ring_nf
  have hstep : 0 < den * 2 ^ roundShift num den := Nat.mul_pos hden (Nat.two_pow_pos _)
  constructor
  · intro n
    obtain ⟨g, hnear, -⟩ := exists_step_near num hden n
    exact herror ▸ (roundHalfEven_nearest num hstep g).1.trans hnear
  · intro n hne htie
    obtain ⟨g, hnear, hon⟩ := exists_step_near num hden n
    obtain ⟨hle, heven⟩ := roundHalfEven_nearest num hstep g
    rw [herror] at htie
    have hg : g ≠ roundHalfEven num (den * 2 ^ roundShift num den) := fun hg =>
      hne (unitsOfMag_strictMono.injective (by rw [hunits, hon (by omega), hg]))
    have := heven hg (by omega)
    rw [roundedMag]
    omega

section
variable {num den m : Nat}

/-- The overflow bound is the midpoint between the largest finite magnitude, which has an odd number, and the next one:
from there on rounding goes past the largest finite magnitude (R168). -/
theorem NearestMag.overflow_iff (h : NearestMag num den m) (hden : 0 < den) :
    0x7F800000 ≤ m ↔ den * ((2 ^ 25 - 1) * 2 ^ 252) ≤ num := by
  obtain ⟨e, he⟩ : ∃ e, e = den * 2 ^ 252 := ⟨_, rfl⟩
  have hmax : unitsOfMag 0x7F7FFFFF * den = (2 ^ 25 - 2) * e := by rw [unitsOfMag_largest, he]; ring
  have hnext : unitsOfMag 0x7F800000 * den = 2 ^ 25 * e := by rw [unitsOfMag_infinity, he]; ring
  have hbound : den * ((2 ^ 25 - 1) * 2 ^ 252) = (2 ^ 25 - 1) * e := by rw [he]; ring
  have hpos : 0 < e := he ▸ Nat.mul_pos hden (Nat.two_pow_pos _)
  clear he
  have hmaxError := h.nearest 0x7F7FFFFF
  have hnextError := h.nearest 0x7F800000
  have heven := h.even 0x7F800000
  have hmono : ∀ {p q : Nat}, p ≤ q → unitsOfMag p * den ≤ unitsOfMag q * den := fun hpq =>
    Nat.mul_le_mul_right den (unitsOfMag_strictMono.monotone hpq)
  have hinj : ∀ {p q : Nat}, unitsOfMag p * den = unitsOfMag q * den → p = q := fun heq =>
    unitsOfMag_strictMono.injective (Nat.eq_of_mul_eq_mul_right hden heq)
  simp only [magError, ← Nat.cast_mul, hmax, hnext] at hmaxError hnextError heven
  rw [hbound]
  constructor
  · intro hm
    have hge := hnext ▸ hmono hm
    omega
  · intro hnum
    by_contra hm
    have hle := hmax ▸ hmono (show m ≤ 0x7F7FFFFF by omega)
    have hodd : m = 0x7F7FFFFF := hinj (by omega)
    have := heven (by omega) (by omega)
    omega

end

/-! ## Rounded patterns (R168) -/

theorem fpIsNaN_fpPack_fpRoundMag (neg : Bool) (num den : Nat) :
    fpIsNaN (fpPack neg (fpRoundMag num den)) = false := by
  have hle : fpRoundMag num den ≤ 0x7F800000 := fpRoundMag_eq num den ▸ Nat.min_le_right ..
  refine Bool.eq_false_iff.2 fun hnan => ?_
  have := fpIsNaN_iff.1 hnan
  rw [fpMag_fpPack neg (by omega)] at this
  omega

/-- The one rounding of the record gives the pattern rounded to nearest, ties to even, with gradual underflow and overflow to
the infinity (R168). -/
theorem roundedTo_fpRoundMag (neg : Bool) (num : Nat) {den : Nat} (hden : 0 < den) :
    RoundedTo (fpPack neg (fpRoundMag num den)) neg num den := by
  have hround := nearestMag_roundedMag num hden
  have hmag : fpMag (fpPack neg (fpRoundMag num den)) = min (roundedMag num den) 0x7F800000 :=
    fpMag_fpPack neg (by rw [fpRoundMag_eq]; omega)
  have hfinite : fpIsInf (fpPack neg (fpRoundMag num den)) = false →
      fpMag (fpPack neg (fpRoundMag num den)) = roundedMag num den := fun hinf => by
    have := mt fpIsInf_iff.2 (Bool.eq_false_iff.1 hinf)
    omega
  constructor
  case sign => exact fpSign_fpPack ..
  case number => exact fpIsNaN_fpPack_fpRoundMag ..
  case overflow =>
    rw [fpIsInf_iff, hmag, ← hround.overflow_iff hden]
    omega
  case nearest =>
    intro hinf v _
    rw [fpMagUnits_eq, fpMagUnits_eq, hfinite hinf]
    exact hround.nearest _
  case even =>
    intro hinf v _ hne htie
    rw [getLsbD_zero_eq_false_iff, hfinite hinf]
    rw [Ne, fpMagUnits_eq_iff, hfinite hinf] at hne
    rw [fpMagUnits_eq, fpMagUnits_eq, hfinite hinf] at htie
    exact hround.even _ hne htie

/-- A value that is a finite pattern's value rounds to that pattern (R168). -/
theorem RoundedTo.eq_of_exact {w r : Word} {neg : Bool} {num den : Nat} (h : RoundedTo w neg num den) (hden : 0 < den)
    (hr : FpFinite r) (hsign : fpSign r = neg) (hexact : num = fpMagUnits r * den) : w = r := by
  have hsmall : num < den * ((2 ^ 25 - 1) * 2 ^ 252) := by
    rw [hexact, Nat.mul_comm]
    exact Nat.mul_lt_mul_of_pos_left (hr.fpMagUnits_le.trans_lt (by norm_num)) hden
  have hinf : fpIsInf w = false := Bool.eq_false_iff.2 (mt h.overflow.1 hsmall.not_ge)
  have hzero := h.nearest hinf r hr
  rw [hexact] at hzero
  refine eq_of_fpSign_of_fpMag (h.sign.trans hsign.symm) (fpMagUnits_eq_iff.1 (Nat.eq_of_mul_eq_mul_right hden ?_))
  zify
  push_cast at hzero
  omega

/-! ## What the six functions answer (R168, R169) -/

section
variable {a b d : Word}

theorem fpUnits_natAbs (w : Word) : (fpUnits w).natAbs = fpMagUnits w := by
  unfold fpUnits
  split <;> simp

theorem fpUnits_eq_zero_iff {w : Word} : fpUnits w = 0 ↔ fpIsZero w = true := by
  rw [← Int.natAbs_eq_zero, fpUnits_natAbs, fpMagUnits_eq_zero_iff]

/-- The sign of a pattern that is not a zero is the sign of its value. -/
theorem fpSign_eq_decide {w : Word} (h : fpUnits w ≠ 0) : fpSign w = decide (fpUnits w < 0) := by
  cases hsign : fpSign w <;> simp only [fpUnits, hsign, if_true, if_false, Bool.false_eq_true] at h ⊢
  · exact (decide_eq_false (by omega)).symm
  · exact (decide_eq_true (by omega)).symm

/-- Signs differ when the product of the values is negative. -/
theorem fpSign_bne_eq_decide (ha : fpUnits a ≠ 0) (hb : fpUnits b ≠ 0) :
    (fpSign a != fpSign b) = decide (fpUnits a * fpUnits b < 0) := by
  rw [fpSign_eq_decide ha, fpSign_eq_decide hb, Bool.eq_iff_iff, bne_iff_ne, decide_eq_true_eq, mul_neg_iff, Ne,
    decide_eq_decide]
  omega

theorem ieeeAdd_of_invalid (h : InvalidAdd a b) : ieeeAdd a b d = fpNaN d := if_pos (fpAddInvalid_iff.2 h)

theorem ieeeAdd_of_inf_left (ha : fpIsInf a = true) (h : ¬ InvalidAdd a b) : ieeeAdd a b d = a := by
  rw [ieeeAdd, if_neg (mt fpAddInvalid_iff.1 h), if_pos ha]

theorem ieeeAdd_of_inf_right (ha : FpFinite a) (hb : fpIsInf b = true) : ieeeAdd a b d = b := by
  have hvalid : ¬ InvalidAdd a b := by simp [ha.not_nan, ha.not_inf, fpIsNaN_of_inf hb]
  simp [ieeeAdd, mt fpAddInvalid_iff.1 hvalid, ha.not_inf, hb]

theorem ieeeAdd_of_finite (ha : FpFinite a) (hb : FpFinite b) :
    ieeeAdd a b d = if fpUnits a + fpUnits b = 0 then fpZero (fpSign a && fpSign b)
      else fpPack (decide (fpUnits a + fpUnits b < 0)) (fpRoundMag (fpUnits a + fpUnits b).natAbs 1) := by
  have hvalid : ¬ InvalidAdd a b := by simp [ha.not_nan, ha.not_inf, hb.not_nan]
  simp [ieeeAdd, mt fpAddInvalid_iff.1 hvalid, ha.not_inf, hb.not_inf]

theorem ieeeSub_of_invalid (h : InvalidSub a b) : ieeeSub a b d = fpNaN d := if_pos (fpSubInvalid_iff.2 h)

theorem fpSubInvalid_eq (a b : Word) : fpSubInvalid a b = fpAddInvalid a (fpNegate b) := by
  simp only [fpSubInvalid, fpAddInvalid, fpIsNaN_fpNegate, fpIsInf_fpNegate, fpSign_fpNegate]
  cases fpSign a <;> cases fpSign b <;> rfl

/-- A difference is the sum with the other sign, invalid operands and all. -/
theorem ieeeSub_eq_ieeeAdd (a b d : Word) : ieeeSub a b d = ieeeAdd a (fpNegate b) d := by
  rw [ieeeSub, fpSubInvalid_eq]
  split
  · next h => exact (if_pos h).symm
  · rfl

theorem invalidSub_iff_invalidAdd : InvalidSub a b ↔ InvalidAdd a (fpNegate b) := by
  rw [← fpSubInvalid_iff, ← fpAddInvalid_iff, fpSubInvalid_eq]

theorem ieeeSub_of_inf_left (ha : fpIsInf a = true) (h : ¬ InvalidSub a b) : ieeeSub a b d = a := by
  rw [ieeeSub_eq_ieeeAdd, ieeeAdd_of_inf_left ha (mt invalidSub_iff_invalidAdd.2 h)]

theorem ieeeSub_of_inf_right (ha : FpFinite a) (hb : fpIsInf b = true) : ieeeSub a b d = fpNegate b := by
  rw [ieeeSub_eq_ieeeAdd, ieeeAdd_of_inf_right ha ((fpIsInf_fpNegate b).trans hb)]

theorem ieeeMul_of_invalid (h : InvalidMul a b) : ieeeMul a b d = fpNaN d := if_pos (fpMulInvalid_iff.2 h)

theorem ieeeMul_of_inf (hinf : fpIsInf a = true ∨ fpIsInf b = true) (h : ¬ InvalidMul a b) :
    ieeeMul a b d = fpInf (fpSign a != fpSign b) := by
  simp [ieeeMul, mt fpMulInvalid_iff.1 h, hinf]

theorem ieeeMul_of_finite (ha : FpFinite a) (hb : FpFinite b) :
    ieeeMul a b d = fpPack (fpSign a != fpSign b) (fpRoundMag (fpMagUnits a * fpMagUnits b) (2 ^ 149)) := by
  have hvalid : ¬ InvalidMul a b := by simp [ha.not_nan, ha.not_inf, hb.not_nan, hb.not_inf]
  simp [ieeeMul, mt fpMulInvalid_iff.1 hvalid, ha.not_inf, hb.not_inf]

theorem ieeeDiv_of_invalid (h : InvalidDiv a b) : ieeeDiv a b d = fpNaN d := if_pos (fpDivInvalid_iff.2 h)

theorem ieeeDiv_of_inf_left (ha : fpIsInf a = true) (hb : FpFinite b) :
    ieeeDiv a b d = fpInf (fpSign a != fpSign b) := by
  have hvalid : ¬ InvalidDiv a b := by simp [fpIsNaN_of_inf ha, fpIsZero_of_inf ha, hb.not_nan, hb.not_inf]
  simp [ieeeDiv, mt fpDivInvalid_iff.1 hvalid, ha]

theorem ieeeDiv_of_inf_right (ha : FpFinite a) (hb : fpIsInf b = true) :
    ieeeDiv a b d = fpZero (fpSign a != fpSign b) := by
  have hvalid : ¬ InvalidDiv a b := by simp [fpIsNaN_of_inf hb, fpIsZero_of_inf hb, ha.not_nan, ha.not_inf]
  simp [ieeeDiv, mt fpDivInvalid_iff.1 hvalid, ha.not_inf, hb]

theorem ieeeDiv_of_zero_right (ha : FpFinite a) (hzero : fpIsZero a = false) (hb : fpIsZero b = true) :
    ieeeDiv a b d = fpInf (fpSign a != fpSign b) := by
  have hvalid : ¬ InvalidDiv a b := by simp [hzero, ha.not_nan, ha.not_inf, (fpFinite_of_zero hb).not_nan]
  simp [ieeeDiv, mt fpDivInvalid_iff.1 hvalid, ha.not_inf, (fpFinite_of_zero hb).not_inf, hb]

theorem ieeeDiv_of_finite (ha : FpFinite a) (hb : FpFinite b) (hzero : fpMagUnits b ≠ 0) :
    ieeeDiv a b d = fpPack (fpSign a != fpSign b) (fpRoundMag (fpMagUnits a * 2 ^ 149) (fpMagUnits b)) := by
  have hzero : ¬ fpIsZero b = true := mt fpMagUnits_eq_zero_iff.2 hzero
  have hvalid : ¬ InvalidDiv a b := by simp [hzero, ha.not_nan, ha.not_inf, hb.not_nan]
  simp [ieeeDiv, mt fpDivInvalid_iff.1 hvalid, ha.not_inf, hb.not_inf, hzero]

theorem ieeeCvtWS_of_invalid (h : InvalidCvtWS a) : ieeeCvtWS a d = d := if_pos (fpCvtWSInvalid_iff.2 h)

theorem ieeeCvtWS_toInt (ha : FpFinite a) (h : -2 ^ 31 ≤ fpNearestInt a ∧ fpNearestInt a < 2 ^ 31) :
    (ieeeCvtWS a d).toInt = fpNearestInt a := by
  have hvalid : ¬ InvalidCvtWS a := by simpa [ha.not_nan, ha.not_inf] using h
  rw [ieeeCvtWS, if_neg (mt fpCvtWSInvalid_iff.1 hvalid), toInt_ofInt_of_inRange h]

/-- The rounded integer is at most half away, and half away only when it is even (R167). -/
theorem fpNearestInt_near (a : Word) :
    (2 * (fpUnits a - fpNearestInt a * 2 ^ 149)).natAbs ≤ 2 ^ 149 ∧
      ((2 * (fpUnits a - fpNearestInt a * 2 ^ 149)).natAbs = 2 ^ 149 → fpNearestInt a % 2 = 0) := by
  obtain ⟨hhalf, heven⟩ := roundHalfEven_near (fpMagUnits a) (den := 2 ^ 149) (by decide)
  unfold fpUnits fpNearestInt
  generalize roundHalfEven (fpMagUnits a) (2 ^ 149) = n at *
  push_cast at hhalf heven
  dsimp only
  split <;> omega

/-! ## Rounded results of finite operands (R168) -/

theorem roundedTo_ieeeAdd (ha : FpFinite a) (hb : FpFinite b) (hsum : fpUnits a + fpUnits b ≠ 0) :
    RoundedTo (ieeeAdd a b d) (decide (fpUnits a + fpUnits b < 0)) (fpUnits a + fpUnits b).natAbs 1 := by
  rw [ieeeAdd_of_finite ha hb, if_neg hsum]
  exact roundedTo_fpRoundMag _ _ one_pos

theorem roundedTo_ieeeMul (ha : FpFinite a) (hb : FpFinite b) :
    RoundedTo (ieeeMul a b d) (fpSign a != fpSign b) (fpMagUnits a * fpMagUnits b) (2 ^ 149) :=
  ieeeMul_of_finite ha hb ▸ roundedTo_fpRoundMag _ _ (Nat.two_pow_pos 149)

theorem roundedTo_ieeeDiv (ha : FpFinite a) (hb : FpFinite b) (hzero : fpMagUnits b ≠ 0) :
    RoundedTo (ieeeDiv a b d) (fpSign a != fpSign b) (fpMagUnits a * 2 ^ 149) (fpMagUnits b) :=
  ieeeDiv_of_finite ha hb hzero ▸ roundedTo_fpRoundMag _ _ (Nat.pos_of_ne_zero hzero)

theorem roundedTo_ieeeCvtSW (w : Word) :
    RoundedTo (ieeeCvtSW w) (decide (w.toInt < 0)) (w.toInt.natAbs * 2 ^ 149) 1 :=
  roundedTo_fpRoundMag _ _ one_pos

/-! ## Exact results (R168): from the rounding, but for the zero sums -/

variable {r : Word}

theorem ieeeAdd_of_exact (ha : FpFinite a) (hb : FpFinite b) (hr : FpFinite r) (hne : fpUnits r ≠ 0)
    (hexact : fpUnits r = fpUnits a + fpUnits b) : ieeeAdd a b d = r := by
  refine (roundedTo_ieeeAdd ha hb (hexact ▸ hne)).eq_of_exact one_pos hr ?sign ?value
  case sign => rw [← hexact, fpSign_eq_decide hne]
  case value => rw [← hexact, fpUnits_natAbs, Nat.mul_one]

theorem ieeeMul_of_exact (ha : FpFinite a) (hb : FpFinite b) (hr : FpFinite r) (hne : fpUnits r ≠ 0)
    (hexact : fpUnits r * 2 ^ 149 = fpUnits a * fpUnits b) : ieeeMul a b d = r := by
  have hprod : fpUnits a * fpUnits b ≠ 0 := by omega
  refine (roundedTo_ieeeMul ha hb).eq_of_exact (Nat.two_pow_pos 149) hr ?sign ?value
  case sign =>
    rw [fpSign_bne_eq_decide (left_ne_zero_of_mul hprod) (right_ne_zero_of_mul hprod), fpSign_eq_decide hne, ← hexact,
      decide_eq_decide]
    omega
  case value =>
    simpa [Int.natAbs_mul, fpUnits_natAbs] using (congrArg Int.natAbs hexact).symm

theorem ieeeDiv_of_exact (ha : FpFinite a) (hb : FpFinite b) (hr : FpFinite r) (hne : fpUnits r ≠ 0)
    (hexact : fpUnits r * fpUnits b = fpUnits a * 2 ^ 149) (hzero : fpUnits b ≠ 0) : ieeeDiv a b d = r := by
  have hmag : fpMagUnits b ≠ 0 := fpUnits_natAbs b ▸ Int.natAbs_ne_zero.2 hzero
  have hnum : fpUnits a ≠ 0 := fun h => mul_ne_zero hne hzero (by rw [hexact, h, zero_mul])
  refine (roundedTo_ieeeDiv ha hb hmag).eq_of_exact (Nat.pos_of_ne_zero hmag) hr ?sign ?value
  case sign =>
    have hsigns : (fpSign r != fpSign b) = fpSign a := by
      rw [fpSign_bne_eq_decide hne hzero, hexact, fpSign_eq_decide hnum, decide_eq_decide]
      omega
    rw [← hsigns]
    cases fpSign r <;> cases fpSign b <;> rfl
  case value =>
    simpa [Int.natAbs_mul, fpUnits_natAbs] using (congrArg Int.natAbs hexact).symm

theorem ieeeCvtSW_of_exact {w : Word} (hr : FpFinite r) (hne : fpUnits r ≠ 0) (hexact : fpUnits r = w.toInt * 2 ^ 149) :
    ieeeCvtSW w = r := by
  refine (roundedTo_ieeeCvtSW w).eq_of_exact one_pos hr ?sign ?value
  case sign =>
    rw [fpSign_eq_decide hne, hexact, decide_eq_decide]
    omega
  case value =>
    simpa [Int.natAbs_mul, fpUnits_natAbs] using (congrArg Int.natAbs hexact).symm

theorem ieeeAdd_of_sum_zero (ha : FpFinite a) (hb : FpFinite b) (hsum : fpUnits a + fpUnits b = 0) :
    ieeeAdd a b d = fpZero (fpSign a && fpSign b) := by
  rw [ieeeAdd_of_finite ha hb, if_pos hsum]

theorem ieeeSub_of_difference_zero (ha : FpFinite a) (hb : FpFinite b) (hdiff : fpUnits a - fpUnits b = 0) :
    ieeeSub a b d = fpZero (fpSign a && !fpSign b) := by
  rw [ieeeSub_eq_ieeeAdd, ieeeAdd_of_sum_zero ha hb.negate (by rwa [fpUnits_fpNegate, ← sub_eq_add_neg]), fpSign_fpNegate]

/-- Two values that cancel and are both negative are zeros. -/
theorem fpSign_and_iff_of_sum_zero (hsum : fpUnits a + fpUnits b = 0) :
    (fpSign a && fpSign b) = true ↔ fpIsZero a = true ∧ fpSign a = true ∧ fpSign b = true := by
  rw [Bool.and_eq_true]
  refine ⟨fun ⟨ha, hb⟩ => ⟨fpUnits_eq_zero_iff.1 ?_, ha, hb⟩, fun ⟨_, hsigns⟩ => hsigns⟩
  simp only [fpUnits, ha, hb, if_true] at hsum ⊢
  omega

theorem ieeeCvtWS_of_exact {w : Word} (ha : FpFinite a) (hexact : fpUnits a = w.toInt * 2 ^ 149) :
    ieeeCvtWS a d = w := by
  obtain ⟨hnear, -⟩ := fpNearestInt_near a
  have hint : fpNearestInt a = w.toInt := by omega
  have hrange : -2 ^ 31 ≤ w.toInt ∧ w.toInt < 2 ^ 31 := ⟨BitVec.le_toInt w, BitVec.toInt_lt⟩
  exact BitVec.eq_of_toInt_eq ((ieeeCvtWS_toInt ha (hint ▸ hrange)).trans hint)

/-! ## Invalid operations (R169) -/

theorem drawsItsNaN_of {op : Word → Word → Word → Word} {invalid : Prop} (hinvalid : invalid → ∀ d, op a b d = fpNaN d)
    (hvalid : ¬ invalid → ∃ v, fpIsNaN v = false ∧ ∀ d, op a b d = v) : DrawsItsNaN op invalid a b where
  isNaN d := by
    by_cases h : invalid
    · simp [hinvalid h, fpIsNaN_fpNaN, h]
    · obtain ⟨v, hnumber, hop⟩ := hvalid h
      simp [hop, hnumber, h]
  anyNaN h d hd := (hinvalid h d).trans (fpNaN_of_nan hd)
  noDraw h d e := by
    obtain ⟨v, -, hop⟩ := hvalid h
    rw [hop, hop]

theorem fpIsNaN_fpInf (neg : Bool) : fpIsNaN (fpInf neg) = false := fpIsNaN_of_inf (fpIsInf_fpInf neg)

theorem fpIsNaN_fpZero (neg : Bool) : fpIsNaN (fpZero neg) = false := (fpFinite_of_zero (fpIsZero_fpZero neg)).not_nan

/-- What a valid operation has for operands. -/
theorem inf_or_finite (h : ¬ fpIsNaN a = true) : fpIsInf a = true ∨ FpFinite a := by
  cases hinf : fpIsInf a
  · exact .inr (fpFinite_of_number (Bool.eq_false_iff.2 h) hinf)
  · exact .inl rfl

theorem ieeeAdd_number (h : ¬ InvalidAdd a b) : ∃ v, fpIsNaN v = false ∧ ∀ d, ieeeAdd a b d = v := by
  obtain ⟨hnanA, hnanB, -⟩ := (not_or.1 h).imp_right not_or.1
  obtain hinfA | hfinA := inf_or_finite hnanA
  · exact ⟨a, fpIsNaN_of_inf hinfA, fun d => ieeeAdd_of_inf_left hinfA h⟩
  obtain hinfB | hfinB := inf_or_finite hnanB
  · exact ⟨b, fpIsNaN_of_inf hinfB, fun d => ieeeAdd_of_inf_right hfinA hinfB⟩
  refine ⟨_, ?_, fun d => ieeeAdd_of_finite hfinA hfinB⟩
  split
  · exact fpIsNaN_fpZero _
  · exact fpIsNaN_fpPack_fpRoundMag ..

theorem ieeeMul_number (h : ¬ InvalidMul a b) : ∃ v, fpIsNaN v = false ∧ ∀ d, ieeeMul a b d = v := by
  obtain ⟨hnanA, hnanB, -⟩ := (not_or.1 h).imp_right not_or.1
  obtain hinfA | hfinA := inf_or_finite hnanA
  · exact ⟨_, fpIsNaN_fpInf _, fun d => ieeeMul_of_inf (.inl hinfA) h⟩
  obtain hinfB | hfinB := inf_or_finite hnanB
  · exact ⟨_, fpIsNaN_fpInf _, fun d => ieeeMul_of_inf (.inr hinfB) h⟩
  · exact ⟨_, fpIsNaN_fpPack_fpRoundMag .., fun d => ieeeMul_of_finite hfinA hfinB⟩

theorem ieeeDiv_number (h : ¬ InvalidDiv a b) : ∃ v, fpIsNaN v = false ∧ ∀ d, ieeeDiv a b d = v := by
  obtain ⟨hnanA, hnanB, hspecial⟩ := (not_or.1 h).imp_right not_or.1
  obtain ⟨hzeros, hinfs⟩ := not_or.1 hspecial
  obtain hinfA | hfinA := inf_or_finite hnanA
  · have hfinB := (inf_or_finite hnanB).resolve_left fun hinfB => hinfs ⟨hinfA, hinfB⟩
    exact ⟨_, fpIsNaN_fpInf _, fun d => ieeeDiv_of_inf_left hinfA hfinB⟩
  obtain hinfB | hfinB := inf_or_finite hnanB
  · exact ⟨_, fpIsNaN_fpZero _, fun d => ieeeDiv_of_inf_right hfinA hinfB⟩
  by_cases hzeroB : fpIsZero b = true
  · have hzeroA := Bool.eq_false_iff.2 fun hzeroA => hzeros ⟨hzeroA, hzeroB⟩
    exact ⟨_, fpIsNaN_fpInf _, fun d => ieeeDiv_of_zero_right hfinA hzeroA hzeroB⟩
  · exact ⟨_, fpIsNaN_fpPack_fpRoundMag .., fun d =>
      ieeeDiv_of_finite hfinA hfinB (mt fpMagUnits_eq_zero_iff.1 hzeroB)⟩

theorem drawsItsNaN_ieeeAdd (a b : Word) : DrawsItsNaN ieeeAdd (InvalidAdd a b) a b :=
  drawsItsNaN_of (fun h _ => ieeeAdd_of_invalid h) ieeeAdd_number

theorem drawsItsNaN_ieeeSub (a b : Word) : DrawsItsNaN ieeeSub (InvalidSub a b) a b :=
  drawsItsNaN_of (fun h _ => ieeeSub_of_invalid h) fun h => by
    simpa only [ieeeSub_eq_ieeeAdd] using ieeeAdd_number (mt invalidSub_iff_invalidAdd.2 h)

theorem drawsItsNaN_ieeeMul (a b : Word) : DrawsItsNaN ieeeMul (InvalidMul a b) a b :=
  drawsItsNaN_of (fun h _ => ieeeMul_of_invalid h) ieeeMul_number

theorem drawsItsNaN_ieeeDiv (a b : Word) : DrawsItsNaN ieeeDiv (InvalidDiv a b) a b :=
  drawsItsNaN_of (fun h _ => ieeeDiv_of_invalid h) ieeeDiv_number

end

/-! ## The record of the run (R168, D18) -/

/-- An instruction that checks CU1 and ends with a floating point result: what holds of the result holds of what was
written (R206). -/
theorem exists_wroteFpr_of_finishFloat {i : Instr} {s : State} {r : FReg} {result : State → Word} {P : Word → Prop}
    (h : exec i s = withCp1 s fun s => finishFloat s r (result s)) (hcp1 : Cp1Usable s) (hresult : P (result s)) :
    ∃ t v, exec i s = .next t ∧ WroteFpr s t r v ∧ P v :=
  ⟨_, result s, h.trans (withCp1_of_usable _ hcp1), wroteFpr_advance s 1 r _, hresult⟩

/-- A result of the record, from its equation in Laws/Numerics.lean: the default's, the platform's own, or a NaN by the draw. -/
theorem record_result {r : FpRecord} {v ieee platform d : Word} {invalidBool : Bool} {invalid : Prop}
    (hv : v = if invalidBool then fpNaN d else if r = .ieeeRne then ieee else platform)
    (hinvalid : invalidBool = true ↔ invalid) (hieee : invalid → ieee = fpNaN d) :
    (r = .ieeeRne → v = ieee) ∧ (r = .platform → ¬ invalid → v = platform) ∧ (invalid → NaNOfDraw v d) := by
  have hnan : invalid → v = fpNaN d := fun h => hv.trans (if_pos (hinvalid.2 h))
  have hown : ¬ invalid → v = if r = .ieeeRne then ieee else platform := fun h => hv.trans (if_neg (mt hinvalid.1 h))
  refine ⟨fun hr => ?_, fun hr hvalid => ?_, fun h => hnan h ▸ ⟨fpIsNaN_fpNaN d, fpNaN_of_nan⟩⟩
  · by_cases h : invalid
    · exact (hnan h).trans (hieee h).symm
    · exact (hown h).trans (if_pos hr)
  · exact (hown hvalid).trans (if_neg (by simp [hr]))

/-! ## The statements -/

/-- Settles O42: all six end by writing a floating point register, with the result of the record. -/
theorem floatComputesItsRecord : Obligations.FloatComputesItsRecord := by
  intro s fd fs ft hcp1 a b
  refine ⟨?add, ?sub, ?mul, ?div, ?cvtSW, ?cvtWS⟩
  case add =>
    exact exists_wroteFpr_of_finishFloat (result := fun s => fpAdd s.cfg.fp (s.readFReg fs) (s.readFReg ft) s.draw) rfl hcp1
      (record_result (fpAdd_eq ..) fpAddInvalid_iff ieeeAdd_of_invalid)
  case sub =>
    exact exists_wroteFpr_of_finishFloat (result := fun s => fpSub s.cfg.fp (s.readFReg fs) (s.readFReg ft) s.draw) rfl hcp1
      (record_result (fpSub_eq ..) fpSubInvalid_iff ieeeSub_of_invalid)
  case mul =>
    exact exists_wroteFpr_of_finishFloat (result := fun s => fpMul s.cfg.fp (s.readFReg fs) (s.readFReg ft) s.draw) rfl hcp1
      (record_result (fpMul_eq ..) fpMulInvalid_iff ieeeMul_of_invalid)
  case div =>
    exact exists_wroteFpr_of_finishFloat (result := fun s => fpDiv s.cfg.fp (s.readFReg fs) (s.readFReg ft) s.draw) rfl hcp1
      (record_result (fpDiv_eq ..) fpDivInvalid_iff ieeeDiv_of_invalid)
  case cvtSW =>
    exact exists_wroteFpr_of_finishFloat (result := fun s => fpCvtSW s.cfg.fp (s.readFReg fs)) rfl hcp1
      ⟨fun hr => hr ▸ rfl, fun hr => hr ▸ rfl⟩
  case cvtWS =>
    refine exists_wroteFpr_of_finishFloat (result := fun s => fpCvtWS s.cfg.fp (s.readFReg fs) s.draw) rfl hcp1
      ⟨fun hr => hr ▸ rfl, fun hr hvalid => ?_, fun h => ?_⟩
    · rw [fpCvtWS_eq, if_neg (mt fpCvtWSInvalid_iff.1 hvalid), if_neg (by simp [hr])]
    · rw [fpCvtWS_eq, if_pos (fpCvtWSInvalid_iff.2 h)]; rfl

/-- Settles O43: a value that is a finite pattern's value rounds to that pattern. -/
theorem floatExactResults : Obligations.FloatExactResults := by
  intro a b r d ha hb hr
  refine ⟨fun hne => ⟨ieeeAdd_of_exact ha hb hr hne, ?sub, ieeeMul_of_exact ha hb hr hne, ieeeDiv_of_exact ha hb hr hne,
    fun _ => ieeeCvtSW_of_exact hr hne⟩, ?sumZero, ?differenceZero, fun _ => ieeeCvtWS_of_exact ha⟩
  case sub =>
    intro hexact
    rw [ieeeSub_eq_ieeeAdd]
    exact ieeeAdd_of_exact ha hb.negate hr hne (by rw [hexact, fpUnits_fpNegate, sub_eq_add_neg])
  case sumZero =>
    intro hsum
    rw [ieeeAdd_of_sum_zero ha hb hsum, fpUnits_eq_zero_iff]
    exact ⟨fpIsZero_fpZero _, fpFinite_of_zero (fpIsZero_fpZero _)⟩
  case differenceZero =>
    intro hdiff
    rw [ieeeSub_of_difference_zero ha hb (sub_eq_zero.2 hdiff), fpUnits_eq_zero_iff]
    exact ⟨fpIsZero_fpZero _, fpFinite_of_zero (fpIsZero_fpZero _)⟩

/-- Settles O44: every operation on finite operands is the one rounding of the record, applied to its exact result. -/
theorem floatRoundsToNearestEven : Obligations.FloatRoundsToNearestEven := by
  intro a b d ha hb
  obtain ⟨hnear, heven⟩ := fpNearestInt_near a
  refine ⟨roundedTo_ieeeAdd ha hb, ?sub, roundedTo_ieeeMul ha hb, roundedTo_ieeeDiv ha hb, roundedTo_ieeeCvtSW,
    fpNearestInt a, hnear, heven, ieeeCvtWS_toInt ha, fun h => ieeeCvtWS_of_invalid (.inr (.inr h))⟩
  case sub =>
    simpa only [ieeeSub_eq_ieeeAdd, fpUnits_fpNegate, ← sub_eq_add_neg] using roundedTo_ieeeAdd (d := d) ha hb.negate

/-- Settles O45: each clause is what the operation answers for that kind of operands. -/
theorem floatSpecialValues : Obligations.FloatSpecialValues := by
  intro a b d
  refine ⟨⟨drawsItsNaN_ieeeAdd a b, drawsItsNaN_ieeeSub a b, drawsItsNaN_ieeeMul a b, drawsItsNaN_ieeeDiv a b⟩,
    ?infInf, ?infFinite, ?byZero, ?zeros, ?cvtWS⟩
  case infInf =>
    intro ha hb
    have hnanA := fpIsNaN_of_inf ha
    have hnanB := fpIsNaN_of_inf hb
    rw [ieeeMul_of_inf (.inl ha) (by simp [hnanA, hnanB, fpIsZero_of_inf ha, fpIsZero_of_inf hb])]
    exact ⟨fun hsigns => ieeeSub_of_inf_left ha (by simp [hnanA, hnanB, hsigns]),
      fun hsigns => ieeeAdd_of_inf_left ha (by simp [hnanA, hnanB, hsigns]), fpIsInf_fpInf _, fpSign_fpInf _⟩
  case infFinite =>
    intro ha hb
    have hnanA := fpIsNaN_of_inf ha
    rw [ieeeAdd_of_inf_left ha (by simp [hnanA, hb.not_nan, hb.not_inf]), ieeeAdd_of_inf_right hb ha,
      ieeeSub_of_inf_left ha (by simp [hnanA, hb.not_nan, hb.not_inf]), ieeeSub_of_inf_right hb ha,
      ieeeDiv_of_inf_left ha hb, ieeeDiv_of_inf_right hb ha]
    refine ⟨rfl, rfl, rfl, (fpIsInf_fpNegate a).trans ha, fpSign_fpNegate a, fun hzero => ?_, fpIsInf_fpInf _,
      fpSign_fpInf _, fpIsZero_fpZero _, fpSign_fpZero _⟩
    rw [ieeeMul_of_inf (.inl ha) (by simp [hnanA, hb.not_nan, hb.not_inf, hzero]),
      ieeeMul_of_inf (.inr ha) (by simp [hnanA, hb.not_nan, hb.not_inf, hzero])]
    exact ⟨fpIsInf_fpInf _, fpSign_fpInf _, fpIsInf_fpInf _, fpSign_fpInf _⟩
  case byZero =>
    intro ha hzero hb
    rw [ieeeDiv_of_zero_right ha hzero hb]
    exact ⟨fpIsInf_fpInf _, fpSign_fpInf _⟩
  case zeros =>
    intro ha hb
    refine ⟨fun hsum => ?_, fun hdiff => ?_, ?_⟩
    · rw [ieeeAdd_of_sum_zero ha hb hsum, fpSign_fpZero]
      exact ⟨fpIsZero_fpZero _, fpSign_and_iff_of_sum_zero hsum⟩
    · rw [ieeeSub_of_difference_zero ha hb hdiff, fpSign_fpZero]
      rw [sub_eq_add_neg, ← fpUnits_fpNegate] at hdiff
      exact ⟨fpIsZero_fpZero _, by simpa using fpSign_and_iff_of_sum_zero hdiff⟩
    · rw [ieeeSub_of_difference_zero ha ha (sub_self _), Bool.and_not_self]
      rfl
  case cvtWS => exact fun h => ieeeCvtWS_of_invalid (h.imp_right .inl)

end Sys2Proof.Machine


/-! # Proofs for spec/46_branches.md

Every branch ends in `finishBranch`. What that ending leaves is said once, for any condition; what remains of a branch is
that the comparison it makes on bits is the comparison of numbers that its rule names. -/

namespace Sys2Proof.Machine

/-! ## The target (R176 (a)) -/

/-- Two zero bits behind the field multiply it by 4, and sign extension keeps the value (R64). -/
theorem branchOffset_eq_ofInt (imm : Imm16) : branchOffset imm = BitVec.ofInt 32 (4 * imm.toInt) := by
  rw [branchOffset, BitVec.signExtend, BitVec.toInt_append_zero]
  rfl

/-- Word addition is addition modulo `2^32` (D25). -/
theorem branchTarget_eq_ofInt (pc : Word) (imm : Imm16) :
    branchTarget pc imm = BitVec.ofInt 32 (pc.toNat + 4 + 4 * imm.toInt) := by
  rw [branchTarget, branchOffset_eq_ofInt, BitVec.ofInt_add, BitVec.ofInt_add]
  simp

/-! ## The conditions (R176 (d), D9) -/

section
variable (x : Word)

theorem isNegative_iff : isNegative x = true ↔ x.toInt < 0 := by
  rw [isNegative, BitVec.msb_eq_toInt, decide_eq_true_iff]

theorem isZero_iff : isZero x = true ↔ x.toInt = 0 := by
  rw [isZero, beq_iff_eq, ← BitVec.toInt_inj]
  rfl

theorem not_isNegative_iff : (!isNegative x) = true ↔ 0 ≤ x.toInt := by
  rw [Bool.not_eq_true', ← Bool.not_eq_true, isNegative_iff, not_lt]

theorem isNegative_or_isZero_iff : (isNegative x || isZero x) = true ↔ x.toInt ≤ 0 := by
  rw [Bool.or_eq_true, isNegative_iff, isZero_iff, le_iff_lt_or_eq]

theorem not_isNegative_and_not_isZero_iff : (!isNegative x && !isZero x) = true ↔ 0 < x.toInt := by
  rw [← Bool.not_or, Bool.not_eq_true', ← Bool.not_eq_true, isNegative_or_isZero_iff, not_le]

end

/-! ## What the ending leaves -/

theorem jumped_setPc (s : State) (target : Word) : Jumped s (s.setPc target) target where
  pc := rfl
  general := fun _ => rfl
  hiLo := ⟨rfl, rfl⟩
  floats := fun _ => rfl
  memory := fun _ => rfl
  control := ⟨rfl, rfl, rfl, rfl⟩
  inputs := ⟨rfl, rfl, rfl⟩

/-- An instruction that ends as a branch completes, with its comparison said by the condition `c` (R176). -/
theorem exists_jumped_of_finishBranch {i : Instr} {s : State} {taken : Bool} {imm : Imm16} {c : Prop} [Decidable c]
    (h : exec i s = finishBranch s taken imm) (hc : taken = true ↔ c) :
    ∃ t, exec i s = .next t ∧
      Jumped s t (if c then BitVec.ofInt 32 (s.pc.toNat + 4 + 4 * imm.toInt) else s.pc + 4) := by
  rw [← branchTarget_eq_ofInt]
  split
  · next hholds => exact ⟨_, h.trans (finishBranch_eq_next.2 (.inl ⟨hc.2 hholds, rfl⟩)), jumped_setPc s _⟩
  · next hfails =>
    exact ⟨_, h.trans (finishBranch_eq_next.2 (.inr ⟨Bool.eq_false_iff.2 (mt hc.1 hfails), rfl⟩)), jumped_setPc s _⟩

/-! ## The statement -/

/-- Settles O30: all six end as a branch, each with its own condition; `bne` branches where `beq` does not. -/
theorem branches : Obligations.Branches := by
  intro s rs rt imm target a
  refine ⟨?bltz, ?bgez, ?blez, ?bgtz, ?beq, ?bne⟩
  case bltz => exact exists_jumped_of_finishBranch rfl (isNegative_iff a)
  case bgez => exact exists_jumped_of_finishBranch rfl (not_isNegative_iff a)
  case blez => exact exists_jumped_of_finishBranch rfl (isNegative_or_isZero_iff a)
  case bgtz => exact exists_jumped_of_finishBranch rfl (not_isNegative_and_not_isZero_iff a)
  case beq => exact exists_jumped_of_finishBranch rfl beq_iff_eq
  case bne =>
    rw [← ite_not]
    exact exists_jumped_of_finishBranch rfl bne_iff_ne

end Sys2Proof.Machine

/-! # Proofs for spec/47_compare_jump.md

What a jump leaves is said by the rules for a jump and for a register write; what remains is the number that a target stands
for. For the refusals, the three instructions that can be refused are named once (`refusable_of_exec_eq_refused`), and each
of them says when it is. -/

namespace Sys2Proof.Machine

/-! ## The target of `j` and `jal` (R182, R184) -/

/-- The top four bits of the program counter place the region; two zero bits behind the field multiply it by 4. -/
theorem jumpTarget_toNat (pc : Word) (target : Target) :
    (jumpTarget pc target).toNat = pc.toNat / 2 ^ 28 * 2 ^ 28 + target.toNat * 4 := by
  have hregion : (pc.extractLsb' 28 4).toNat = pc.toNat / 2 ^ 28 := by
    rw [BitVec.extractLsb'_toNat, Nat.shiftRight_eq_div_pow, Nat.mod_eq_of_lt (by omega)]
  rw [jumpTarget, BitVec.toNat_append, BitVec.toNat_append, ← Nat.shiftLeft_add_eq_or_of_lt (0#2).isLt,
    ← Nat.shiftLeft_add_eq_or_of_lt target.isLt, Nat.shiftLeft_eq, Nat.shiftLeft_eq, hregion, BitVec.toNat_ofNat]
  ring

/-- A link register other than the target's: both are written, from the values before (R185, D20). -/
theorem exec_jalr_of_ne (s : State) {rd rs : GReg} (h : rd ≠ rs) :
    exec (.jalr rd rs) s = .next ((s.writeReg rd (s.pc + 4)).setPc (s.readReg rs)) :=
  if_neg h

/-! ## What can be refused -/

section
variable {i : Instr} {s t : State} {r : Refusal}

theorem cp0Usable_iff : s.cp0Usable = true ↔ Cp0Usable s := by
  simp [Cp0Usable, State.cp0Usable, State.mode, State.cu0]

theorem next_ne_refused : (Host.Outcome.next t : Result) ≠ .refused r := nofun

/-- Covers `add`, `sub`, `addi` and the divisions, whose two endings both have a next state. -/
theorem ite_next_ne_refused {p : Prop} [Decidable p] {u : State} :
    (if p then .next t else .next u : Result) ≠ .refused r := by
  split <;> exact next_ne_refused

/-- The checks of an access raise or are stuck, but refuse nothing (R45). -/
theorem withAccess_next_ne_refused {w : Width} {k : AccessKind} {a : Word} :
    withAccess s w k a (.next t) ≠ .refused r := by
  unfold withAccess
  split <;> nofun

theorem withCp0_eq_refused {k : State → Result} :
    withCp0 s k = .refused r ↔ s.cp0Usable = true ∧ k s = .refused r := by
  unfold withCp0
  cases s.cp0Usable <;> simp [raise]

theorem withCp1_eq_refused {k : State → Result} :
    withCp1 s k = .refused r ↔ s.cu1 = true ∧ k s = .refused r := by
  unfold withCp1
  cases s.cu1 <;> simp [raise]

theorem exec_jalr_eq_refused {rd rs : GReg} :
    exec (.jalr rd rs) s = .refused r ↔ rd = rs ∧ .jalrLinkIsTarget = r := by
  simp only [exec, execJalr]
  split_ifs with hlink <;> simp [hlink]

/-- The numbers that name no control register (R35). -/
def AbsentControl (cd : CReg) : Prop := cd ≠ 8 ∧ cd ≠ 12 ∧ cd ≠ 13 ∧ cd ≠ 14

theorem readControl_eq_none_iff {cd : CReg} : s.readControl cd = none ↔ AbsentControl cd := by
  unfold State.readControl
  split_ifs with h8 h12 h13 h14
  · exact iff_of_false nofun fun ⟨hne, _⟩ => hne h8
  · exact iff_of_false nofun fun ⟨_, hne, _⟩ => hne h12
  · exact iff_of_false nofun fun ⟨_, _, hne, _⟩ => hne h13
  · exact iff_of_false nofun fun ⟨_, _, _, hne⟩ => hne h14
  · exact iff_of_true rfl ⟨h8, h12, h13, h14⟩

/-- With co-processor 0 usable, `mfc0` is refused exactly where there is no register (R35, R193). -/
theorem exec_mfc0_eq_refused {rt : GReg} {cd : CReg} :
    exec (.mfc0 rt cd) s = .refused r ↔ Cp0Usable s ∧ AbsentControl cd ∧ .controlRegisterAbsent cd = r := by
  simp only [exec, execMfc0]
  rw [withCp0_eq_refused, cp0Usable_iff, ← readControl_eq_none_iff]
  cases s.readControl cd with
  | none => simp
  | some v => simp [finishReg]

/-- With co-processor 0 usable, `mtc0` is refused exactly where it has no register to write (R33 to R35, R194). -/
theorem exec_mtc0_eq_refused {rt : GReg} {cd : CReg} :
    exec (.mtc0 rt cd) s = .refused r ↔ Cp0Usable s ∧
      (AbsentControl cd ∧ .controlRegisterAbsent cd = r ∨ (cd = 8 ∨ cd = 14) ∧ .controlRegisterReadOnly cd = r) := by
  simp only [exec, execMtc0]
  rw [withCp0_eq_refused, cp0Usable_iff]
  refine and_congr_right fun _ => ?_
  split_ifs with hstatus hcause hreadOnly
  · simp [AbsentControl, hstatus]
  · simp [AbsentControl, hcause]
  · have hpresent : ¬ AbsentControl cd := fun ⟨h8, _, _, h14⟩ => hreadOnly.elim h8 h14
    simp only [Host.Outcome.refused.injEq, hpresent, hreadOnly, false_and, false_or, true_and]
  · have habsent : AbsentControl cd := ⟨mt .inl hreadOnly, hstatus, hcause, mt .inr hreadOnly⟩
    simp only [Host.Outcome.refused.injEq, habsent, hreadOnly, false_and, or_false, true_and]

/-- Every other instruction ends in a next state or in its access. -/
theorem refusable_of_exec_eq_refused (h : exec i s = .refused r) :
    (∃ rd rs, i = .jalr rd rs) ∨ (∃ rt cd, i = .mfc0 rt cd) ∨ ∃ rt cd, i = .mtc0 rt cd := by
  cases i with
  | jalr => exact .inl ⟨_, _, rfl⟩
  | mfc0 => exact .inr (.inl ⟨_, _, rfl⟩)
  | mtc0 => exact .inr (.inr ⟨_, _, rfl⟩)
  | lw | lb | lbu | sw | sb => exact absurd h withAccess_next_ne_refused
  | lwc1 | swc1 =>
    simp only [exec, execLwc1, execSwc1] at h
    exact absurd (withCp1_eq_refused.1 h).2 withAccess_next_ne_refused
  | add | sub | addi | div | divu => exact absurd h ite_next_ne_refused
  | addu | subu | and | nor | or | xor | addiu | andi | lui | ori | xori | mfhi | mthi | mflo | mtlo | sll | srl | sra
  | sllv | srlv | srav | slt | slti | mult | multu | bltz | bgez | blez | bgtz | beq | bne | j | jr | jal | syscall
  | brk => exact absurd h next_ne_refused
  | addS | subS | mulS | divS | cvtSW | cvtWS | mfc1 | mtc1 =>
    simp only [exec, execAddS, execSubS, execMulS, execDivS, execCvtSW, execCvtWS, execMfc1, execMtc1] at h
    exact absurd (withCp1_eq_refused.1 h).2 next_ne_refused
  | rfe =>
    simp only [exec, execRfe] at h
    exact absurd (withCp0_eq_refused.1 h).2 next_ne_refused

end

/-! ## The statements -/

/-- Settles O31: the word matches its row, and the jump is to the number of the target. -/
theorem jumpResult : Obligations.JumpResult :=
  ⟨fun _ => decodeWord_of_row (.j 0), fun s _ => ⟨_, _, rfl, jumped_setPc s _, jumpTarget_toNat ..⟩⟩

/-- Settles O32: a link is a register write that draws nothing, followed by the jump. -/
theorem jrJalJalrResult : Obligations.JrJalJalrResult := by
  intro s rd rs target
  refine ⟨?jr, ?jal, fun hne => ?jalr⟩
  case jr => exact ⟨_, rfl, jumped_setPc s _⟩
  case jal => exact ⟨_, _, rfl, wroteGpr_setPc s 0 31 (s.pc + 4) _, jumpTarget_toNat ..⟩
  case jalr => exact ⟨_, exec_jalr_of_ne s hne, wroteGpr_setPc s 0 rd (s.pc + 4) _⟩

/-- Settles O33: only three instructions can be refused, and each says when it is. -/
theorem refusedExactlyOnFormsWithoutMeaning : Obligations.RefusedExactlyOnFormsWithoutMeaning := by
  intro i s r
  constructor
  · intro h
    obtain ⟨rd, rs, rfl⟩ | ⟨rt, cd, rfl⟩ | ⟨rt, cd, rfl⟩ := refusable_of_exec_eq_refused h
    · obtain ⟨rfl, rfl⟩ := exec_jalr_eq_refused.1 h
      exact .inl ⟨rd, rfl, rfl⟩
    · obtain ⟨hcp0, ⟨h8, h12, h13, h14⟩, rfl⟩ := exec_mfc0_eq_refused.1 h
      exact .inr ⟨hcp0, rt, cd, .inl ⟨h8, h12, h13, h14, .inl rfl, rfl⟩⟩
    · obtain ⟨hcp0, ⟨⟨h8, h12, h13, h14⟩, rfl⟩ | ⟨hcd, rfl⟩⟩ := exec_mtc0_eq_refused.1 h
      · exact .inr ⟨hcp0, rt, cd, .inl ⟨h8, h12, h13, h14, .inr rfl, rfl⟩⟩
      · exact .inr ⟨hcp0, rt, cd, .inr ⟨hcd, rfl, rfl⟩⟩
  · rintro (⟨d, rfl, rfl⟩ | ⟨hcp0, rt, cd, ⟨h8, h12, h13, h14, rfl | rfl, rfl⟩ | ⟨hcd, rfl, rfl⟩⟩)
    · exact exec_jalr_eq_refused.2 ⟨rfl, rfl⟩
    · exact exec_mfc0_eq_refused.2 ⟨hcp0, ⟨h8, h12, h13, h14⟩, rfl⟩
    · exact exec_mtc0_eq_refused.2 ⟨hcp0, .inl ⟨⟨h8, h12, h13, h14⟩, rfl⟩⟩
    · exact exec_mtc0_eq_refused.2 ⟨hcp0, .inr ⟨hcd, rfl⟩⟩

end Sys2Proof.Machine

/-! # Proofs for spec/48_system_coprocessor.md

Each instruction of this part raises its exception, or writes one piece of state behind the check of its co-processor.
What `mfc0` reads and what `rfe` writes is said bit by bit, before the statements. -/

namespace Sys2Proof.Machine

section
variable {i : Instr} {s : State}

/-! ## What a control register reads as (R31, R32) -/

/-- The mask is the one of R31. -/
theorem statusFunctionMask_getLsbD {k : Nat} (h : StatusFunctionBit k) : statusFunctionMask.getLsbD k = true := by
  have hall : ∀ k < 32, StatusFunctionBit k → statusFunctionMask.getLsbD k = true := by decide
  exact hall k (by omega) h

/-- The draw shows in no bit of Status that has a function (R31, U9). -/
theorem statusWord_getLsbD (s : State) {k : Nat} (h : StatusFunctionBit k) :
    s.statusWord.getLsbD k = s.status.getLsbD k := by
  simp [State.statusWord, statusFunctionMask_getLsbD h]

/-- The draw shows in no field of Cause (R32, U9). -/
theorem causeWord_fields (s : State) :
    s.causeWord.extractLsb' 2 5 = s.cause.excCode ∧ s.causeWord.extractLsb' 8 2 = s.cause.ip ∧
      s.causeWord.extractLsb' 10 6 = s.irq ∧ s.causeWord.extractLsb' 28 2 = s.cause.ce ∧
      s.causeWord.extractLsb' 31 1 = s.cause.bd := by
  refine ⟨?_, ?_, ?_, ?_, ?_⟩ <;>
  · apply BitVec.eq_of_getLsbD_eq
    intro k hk
    simp only [State.causeWord, BitVec.getLsbD_extractLsb', BitVec.getLsbD_append]
    interval_cases k <;> simp

/-! ## The pop of the Status stack (R192) -/

/-- The pop of the stack, bit by bit (R31, R192). -/
theorem popStatus_getLsbD (st : Word) (k : Nat) :
    (popStatus st).getLsbD k = if k < 4 then st.getLsbD (k + 2) else st.getLsbD k := by
  simp only [popStatus, BitVec.getLsbD_append, BitVec.getLsbD_extractLsb']
  split
  · next hstack => simp [hstack, Nat.add_comm]
  · next hrest =>
    rw [Nat.add_sub_cancel' (not_lt.1 hrest), Bool.and_eq_right_iff_imp, decide_eq_true_eq]
    exact fun hset => by have := BitVec.lt_of_getLsbD hset; omega

/-! ## What each instruction does once its co-processor is usable (R206) -/

/-- The endings that write Status or Cause alone. -/
theorem wroteControl_advance (s : State) (status : Word) (cause : Cause) :
    WroteControl s { s with status := status, cause := cause }.advance where
  pc := rfl
  general := fun _ => rfl
  hiLo := ⟨rfl, rfl⟩
  floats := fun _ => rfl
  memory := fun _ => rfl
  inputs := ⟨rfl, rfl, rfl⟩

theorem exec_rfe_of_usable (hcp0 : Cp0Usable s) : exec .rfe s = .next s.trapReturn.advance :=
  withCp0_of_usable (fun s => .next s.trapReturn.advance) (cp0Usable_iff.2 hcp0)

theorem exec_mtc0_status_of_usable (hcp0 : Cp0Usable s) (rt : GReg) :
    exec (.mtc0 rt 12) s = .next (s.writeStatus (s.readReg rt)).advance := by
  simp only [exec, execMtc0]
  exact withCp0_of_usable _ (cp0Usable_iff.2 hcp0)

theorem exec_mtc0_cause_of_usable (hcp0 : Cp0Usable s) (rt : GReg) :
    exec (.mtc0 rt 13) s = .next (s.writeCause (s.readReg rt)).advance := by
  simp only [exec, execMtc0]
  exact withCp0_of_usable _ (cp0Usable_iff.2 hcp0)

theorem exec_mfc1_of_usable (hcp1 : Cp1Usable s) (rt : GReg) (fd : FReg) :
    exec (.mfc1 rt fd) s = finishReg s rt (s.readFReg fd) :=
  withCp1_of_usable (fun s => finishReg s rt (s.readFReg fd)) hcp1

theorem exec_mtc1_of_usable (hcp1 : Cp1Usable s) (rt : GReg) (fd : FReg) :
    exec (.mtc1 rt fd) s = .next (s.writeFReg fd (s.readReg rt)).advance :=
  withCp1_of_usable (fun s => .next (s.writeFReg fd (s.readReg rt)).advance) hcp1

/-- `mfc0` of a register that exists copies what it reads as (R193). -/
theorem exists_wroteGpr_of_mfc0 (hcp0 : Cp0Usable s) (rt : GReg) {cd : CReg} {v : Word}
    (hread : s.readControl cd = some v) :
    ∃ t, exec (.mfc0 rt cd) s = .next t ∧ WroteGpr s t rt v (s.pc + 4) := by
  refine ⟨_, ?_, wroteGpr_advance s 1 rt v⟩
  simp only [exec, execMfc0]
  rw [withCp0_of_usable _ (cp0Usable_iff.2 hcp0), hread]
  rfl

/-! ## What raises -/

theorem exists_trapped_of_raise {e : Exception} (h : exec i s = raise e s) : ∃ t, exec i s = .next t ∧ Trapped s t e :=
  ⟨_, h, trapped_trapEntry s e⟩

theorem withCp0_of_not_usable (k : State → Result) (hcp0 : ¬ Cp0Usable s) :
    withCp0 s k = raise (.coprocessorUnusable 0) s :=
  if_neg (mt cp0Usable_iff.1 hcp0)

theorem withCp1_of_not_usable (k : State → Result) (hcp1 : ¬ Cp1Usable s) :
    withCp1 s k = raise (.coprocessorUnusable 1) s :=
  if_neg hcp1

theorem not_cp0Usable (huser : s.status.getLsbD 1 = true) (hcu0 : s.status.getLsbD 28 = false) : ¬ Cp0Usable s := by
  rw [Cp0Usable, huser, hcu0]
  decide

end

/-! ## The statements -/

/-- Settles O48: each of the four registers reads, and a draw shows in no bit that the statement speaks of. -/
theorem mfc0ReadsControlRegisters : Obligations.Mfc0ReadsControlRegisters := by
  intro s rt hcp0
  refine ⟨exists_wroteGpr_of_mfc0 hcp0 rt rfl, ?status, ?cause, exists_wroteGpr_of_mfc0 hcp0 rt rfl⟩
  case status =>
    obtain ⟨t, hexec, hwrote⟩ := exists_wroteGpr_of_mfc0 (cd := 12) (v := s.statusWord) hcp0 rt rfl
    exact ⟨t, _, hexec, hwrote, fun k hk => statusWord_getLsbD s hk⟩
  case cause =>
    obtain ⟨t, hexec, hwrote⟩ := exists_wroteGpr_of_mfc0 (cd := 13) (v := s.causeWord) hcp0 rt rfl
    exact ⟨t, _, hexec, hwrote, causeWord_fields s⟩

/-- Settles O49: with the check passed, `mtc0` writes its one register and advances. -/
theorem mtc0WritesStatusAndCause : Obligations.Mtc0WritesStatusAndCause :=
  fun s rt hcp0 =>
    ⟨⟨_, exec_mtc0_status_of_usable hcp0 rt, wroteControl_advance s _ s.cause, fun _ _ => rfl, rfl, rfl, rfl⟩,
      ⟨_, exec_mtc0_cause_of_usable hcp0 rt, wroteControl_advance s s.status _, rfl, rfl, rfl, rfl⟩⟩

/-- Settles O50: with the check passed, `rfe` pops the stack, which `popStatus_getLsbD` says bit by bit. -/
theorem rfePopsTheStatusStack : Obligations.RfePopsTheStatusStack :=
  fun s hcp0 =>
    ⟨_, exec_rfe_of_usable hcp0, wroteControl_advance s _ s.cause,
      fun k hk => (popStatus_getLsbD s.status k).trans (if_pos hk),
      fun k hk => (popStatus_getLsbD s.status k).trans (if_neg (not_lt.2 hk)), rfl, rfl, rfl⟩

/-- Settles O51: with the check passed, each is a register write of the bits it read. -/
theorem mfc1Mtc1MoveBits : Obligations.Mfc1Mtc1MoveBits :=
  fun s rt fd hcp1 =>
    ⟨wroteGpr_of_finishReg (exec_mfc1_of_usable hcp1 rt fd),
      ⟨_, exec_mtc1_of_usable hcp1 rt fd, wroteFpr_advance s 0 fd _⟩⟩

/-- Settles O52: each is the raise of its exception, and nothing is checked before it. -/
theorem syscallAndBreakEnterTheHandler : Obligations.SyscallAndBreakEnterTheHandler :=
  fun _ _ _ => ⟨exists_trapped_of_raise rfl, exists_trapped_of_raise rfl⟩

/-- Settles O46: each of the ten checks CU1 before anything else. -/
theorem cp1UnusableRaises : Obligations.Cp1UnusableRaises := by
  intro s i hcu1 hi
  have hcp1 : ¬ Cp1Usable s := Bool.eq_false_iff.1 hcu1
  obtain ⟨ft, rb, imm, rfl | rfl⟩ | ⟨fd, fs, ft, rfl | rfl | rfl | rfl⟩ | ⟨fd, fs, rfl | rfl⟩ | ⟨rt, fd, rfl | rfl⟩ :=
    hi
  all_goals
    refine exists_trapped_of_raise ?_
    simp only [exec, execLwc1, execSwc1, execAddS, execSubS, execMulS, execDivS, execCvtSW, execCvtWS, execMfc1,
      execMtc1]
    exact withCp1_of_not_usable _ hcp1

/-- Settles O47: each of the three checks co-processor 0 before anything else. -/
theorem cp0UnusableRaises : Obligations.Cp0UnusableRaises := by
  intro s i huser hcu0 hi
  obtain rfl | ⟨rt, cd, rfl | rfl⟩ := hi
  all_goals
    refine exists_trapped_of_raise ?_
    simp only [exec, execRfe, execMfc0, execMtc0]
    exact withCp0_of_not_usable _ (not_cp0Usable huser hcu0)

end Sys2Proof.Machine

/-! # Proofs for spec/60_exceptions.md

A step is settled by what the sampled state answers: an interrupt, the checks of the fetch, the fetched word. What happens
to the control registers is read off `ExecEffect` once (`ExecEffect.control_cases`), and the whole-machine rules are its
consequences. -/

namespace Sys2Proof.Machine

section
variable {i : Instr} {s t : State}

/-! ## The parts of a step, in the words of the statements (R203) -/

theorem beginStep_interruptDue_eq_false (h : ¬ InterruptDue s) : s.beginStep.interruptDue = false :=
  Bool.eq_false_iff.2 (mt beginStep_interruptDue_iff.1 h)

/-- A fetch of written bytes finds the word they make up, whatever the draw (R49). -/
theorem fetchedWord_beginStep {b0 b1 b2 b3 : Byte} (h : HoldsBytes s s.pc b0 b1 b2 b3) :
    s.beginStep.fetchedWord = wordOfBytes s.cfg.byteOrder b0 b1 b2 b3 := by
  obtain ⟨h0, h1, h2, h3⟩ := h
  exact readWord_of_written _ _ _ _ b0 b1 b2 b3 h0 h1 h2 h3

theorem decodeWord_of_decodeBytes {o : ByteOrder} {b0 b1 b2 b3 : Byte}
    (h : decodeBytes o [b0, b1, b2, b3] = .instr i []) : decodeWord (wordOfBytes o b0 b1 b2 b3) = some i := by
  simp only [decodeBytes] at h
  cases hdec : decodeWord (wordOfBytes o b0 b1 b2 b3) with
  | none => simp [hdec] at h
  | some j => simpa [hdec] using h

/-- Sampling the lines changes nothing that the checks of the fetch read. -/
theorem step_of_missing (hdue : ¬ InterruptDue s) (h : Missing s .word .fetch s.pc) :
    step s = .fault (.outsideMemValid .fetch s.pc) := by
  have hstuck := checkAccess_eq_stuck_iff_missing.2 h
  rw [step, fetchThen, beginStep_interruptDue_eq_false hdue, if_neg Bool.false_ne_true]
  exact withAccess_eq_fault.2 (.inr ⟨hstuck, rfl⟩)

/-! ## Mode and interrupt enable (R31, R210, R211) -/

theorem mode_eq_user_iff : s.mode = .user ↔ s.status.getLsbD 1 = true := by simp [State.mode]

theorem mode_eq_kernel_iff : s.mode = .kernel ↔ s.status.getLsbD 1 = false := by simp [State.mode]

theorem mode_congr (h : t.status.getLsbD 1 = s.status.getLsbD 1) : t.mode = s.mode := by simp only [State.mode, h]

theorem trapEntry_mode (e : Exception) (s : State) : (trapEntry e s).mode = .kernel :=
  mode_eq_kernel_iff.2 (trapped_trapEntry s e).current.2

/-- What the push keeps, the pop brings back: all but the two bits that the old pair was pushed out of (R210, R211). -/
theorem popStatus_pushStatus_getLsbD (st : Word) {k : Nat} (hk : k < 4 ∨ 6 ≤ k) :
    (popStatus (pushStatus st)).getLsbD k = st.getLsbD k := by
  rw [popStatus_getLsbD, pushStatus_getLsbD, pushStatus_getLsbD]
  obtain hlow | hhigh := hk
  · have hpushed : k + 2 < 6 := by omega
    simp [hlow, hpushed]
  · have hnotStack : ¬ k < 4 := by omega
    have hnotLow : ¬ k < 2 := by omega
    simp [hnotStack, hnotLow, not_lt.2 hhigh]

/-! ## What happens to the control registers -/

/-- The three forms that write a control register without a trap, each with what it writes (R192, R194).
`ExecEffect.control_cases` ties it to `exec`. -/
inductive WritesControl (s : State) : Instr → State → Prop
  | rfe : WritesControl s .rfe s.trapReturn.advance
  | status (rt : GReg) : WritesControl s (.mtc0 rt 12) (s.writeStatus (s.readReg rt)).advance
  | cause (rt : GReg) : WritesControl s (.mtc0 rt 13) (s.writeCause (s.readReg rt)).advance

/-- An instruction traps, or leaves the control registers alone, or is one of the three forms that write them, with
co-processor 0 usable (R202, R206). -/
theorem ExecEffect.control_cases (h : ExecEffect i s t) :
    (∃ e, mayRaise i s e ∧ t = trapEntry e s) ∨ SameControl s t ∨ (Cp0Usable s ∧ WritesControl s i t) := by
  cases h with
  | trap hraise => exact .inl ⟨_, hraise, rfl⟩
  | trapReturn hi hcp0 => exact .inr (.inr ⟨cp0Usable_iff.1 hcp0, hi ▸ .rfe⟩)
  | status hi hcp0 => exact .inr (.inr ⟨cp0Usable_iff.1 hcp0, hi ▸ .status _⟩)
  | cause hi hcp0 => exact .inr (.inr ⟨cp0Usable_iff.1 hcp0, hi ▸ .cause _⟩)
  | gpr => exact .inr (.inl (by simp [SameControl]))
  | fpr | hiLo | storeWord | storeByte | jump => exact .inr (.inl ⟨rfl, rfl, rfl, rfl⟩)

/-- The same for a step, whose exceptions may also be those of the fetch (R203). -/
theorem step_control_cases (h : step s = .next t) :
    (∃ e, t = trapEntry e s.beginStep) ∨ SameControl s t ∨
      (Cp0Usable s ∧ ∃ i, decodeWord s.beginStep.fetchedWord = some i ∧ WritesControl s.beginStep i t) := by
  obtain htrap | ⟨i, hdec, heffect⟩ := step_trap_or_effect h
  · exact .inl htrap
  · obtain ⟨e, -, ht⟩ | hsame | ⟨hcp0, hwrites⟩ := heffect.control_cases
    · exact .inl ⟨e, ht⟩
    · exact .inr (.inl hsame)
    · exact .inr (.inr ⟨hcp0, i, hdec, hwrites⟩)

theorem SameControl.mode_eq (h : SameControl s t) : t.mode = s.mode := by
  obtain ⟨hstatus, -⟩ := h
  exact mode_congr (congrArg (·.getLsbD 1) hstatus)

end

/-! ## The statements -/

/-- Settles O6: the four bytes are the fetched word, and the step is what `step_of_decode` says. -/
theorem stepRunsDecodedInstruction : Obligations.StepRunsDecodedInstruction := by
  intro s i b0 b1 b2 b3 hdue hfetch hbytes hdec
  refine step_of_decode (beginStep_interruptDue_eq_false hdue) (checkAccess_eq_ok_iff_granted.2 hfetch) ?_
  rw [fetchedWord_beginStep hbytes, decodeWord_of_decodeBytes hdec]

/-- Settles O7: the interrupt is the first thing a step looks at. -/
theorem stepTakesDueInterrupt : Obligations.StepTakesDueInterrupt :=
  fun _ hdue => ⟨_, step_eq_next.2 (.inl ⟨beginStep_interruptDue_iff.2 hdue, rfl⟩), trapped_trapEntry _ _⟩

/-- Settles O8: the checks of the fetch decide the first two clauses, the decoder the third. -/
theorem fetchOutcomesWithoutAnInstruction : Obligations.FetchOutcomesWithoutAnInstruction := by
  intro s hdue
  have hnone := beginStep_interruptDue_eq_false hdue
  refine ⟨fun hdenied => ?denied, step_of_missing hdue, fun b0 b1 b2 b3 hgranted hbytes hdec => ?reserved⟩
  case denied =>
    have hraises := checkAccess_eq_raises_of_denied hdenied
    exact ⟨_, step_eq_next.2 (.inr (.inl ⟨hnone, hraises, rfl⟩)), trapped_trapEntry _ _⟩
  case reserved =>
    have hok := checkAccess_eq_ok_iff_granted.2 hgranted
    rw [← fetchedWord_beginStep hbytes] at hdec
    exact ⟨_, step_eq_next.2 (.inr (.inr (.inl ⟨hnone, hok, hdec, rfl⟩))), trapped_trapEntry _ _⟩

/-- Settles O10: `Trapped` says what is recorded; the pushed stack has KUc and IEc clear, so nothing is due. -/
theorem trapEntryRecordsTheException : Obligations.TrapEntryRecordsTheException := by
  intro e s
  have htrapped := trapped_trapEntry s e
  obtain ⟨hdisabled, -⟩ := htrapped.current
  exact ⟨htrapped, trapEntry_mode e s, fun ⟨henabled, _⟩ => Bool.eq_false_iff.1 hdisabled henabled⟩

/-- Settles O11: the handler runs in kernel mode, so `rfe` pops what trap entry pushed. -/
theorem trapThenRfeRestoresTheMode : Obligations.TrapThenRfeRestoresTheMode := by
  intro e s
  have hkernel : Cp0Usable (trapEntry e s) := .inl (mode_eq_kernel_iff.1 (trapEntry_mode e s))
  have hstatus : ∀ k, k < 4 ∨ 6 ≤ k →
      (trapEntry e s).trapReturn.advance.status.getLsbD k = s.status.getLsbD k :=
    fun k hk => popStatus_pushStatus_getLsbD s.status hk
  exact ⟨_, exec_rfe_of_usable hkernel, mode_congr (hstatus 1 (by omega)), hstatus 0 (by omega), hstatus,
    rfl, rfl, rfl, rfl⟩

/-- Settles O12: the cases of `ExecEffect.control_cases`, each with what its write leaves. -/
theorem controlStateFrame : Obligations.ControlStateFrame := by
  intro i s t h
  obtain ⟨e, hraise, rfl⟩ | hsame | ⟨-, hwrites⟩ := (exec_effect h).control_cases
  · exact .inl ⟨e, hraise, trapped_trapEntry s e⟩
  · exact .inr (.inl hsame)
  · cases hwrites with
    | rfe =>
      refine .inr (.inr (.inl ⟨rfl, rfl, rfl, rfl, fun k hk => ?_⟩))
      exact (popStatus_getLsbD s.status k).trans (if_neg (not_lt.2 hk))
    | status rt => exact .inr (.inr (.inr (.inl ⟨rt, rfl, rfl, rfl, rfl⟩)))
    | cause rt => exact .inr (.inr (.inr (.inr ⟨rt, rfl, rfl, rfl, rfl, rfl, rfl, rfl⟩)))

/-- Settles O57: the instructions that write control registers need co-processor 0, which is not usable here. -/
theorem userModeCannotTouchControlState : Obligations.UserModeCannotTouchControlState := by
  intro s t huser hcu0 h
  obtain ⟨e, rfl⟩ | hsame | ⟨hcp0, -⟩ := step_control_cases h
  · exact .inr ⟨e, trapped_trapEntry _ e, trapEntry_mode e _, rfl⟩
  · exact .inl ⟨hsame, hsame.mode_eq.trans huser⟩
  · exact absurd hcp0 (not_cp0Usable (mode_eq_user_iff.1 huser) hcu0)

/-- Settles O58: trap entry enters kernel mode, and of the writes to control registers only two reach KUc. -/
theorem onlyRfeAndMtc0EnterUserMode : Obligations.OnlyRfeAndMtc0EnterUserMode := by
  intro s t hkernel h huser
  have hleft : ∀ u : State, u.mode = .kernel → t.mode ≠ u.mode := fun u hu => by rw [hu, huser]; exact nofun
  have hkuc := mode_eq_user_iff.1 huser
  obtain ⟨e, ht⟩ | hsame | ⟨-, i, hdec, hwrites⟩ := step_control_cases h
  · exact absurd (congrArg State.mode ht) (hleft _ (trapEntry_mode e _))
  · exact absurd hsame.mode_eq (hleft s hkernel)
  · refine ⟨i, hdec, ?_⟩
    cases hwrites with
    | rfe => exact .inl ⟨rfl, (popStatus_getLsbD s.status 1).symm.trans hkuc⟩
    | status rt => exact .inr ⟨rt, rfl, hkuc⟩
    | cause rt => exact absurd rfl (hleft s hkernel)

end Sys2Proof.Machine
